-- ==== Sys2Proof/Word.lean ====
section
/-! DEFINITION. The words of the block (spec/00_scope R16, R17) the real numbers, and the values a
host call carries. -/

namespace Sys2Proof

/-- One register byte or bus byte: `u8` of R17. -/
abbrev Byte := BitVec 8

/-- A Sensirion command code or data word: `u16` of R17. -/
abbrev Word16 := BitVec 16

/-- The 20-bit ADC values of the BME280: `u20` of R17. -/
abbrev Word20 := BitVec 20

/-- A real number as plain data: a rational one, or the k-th of the real numbers that an opaque constant names
(Machine/Reals.lean), each of which may be any real number. DESIGN CHOICE, safe: log 3. -/
inductive Number where
  | rat (q : Rat)
  | real (k : Nat)
  deriving DecidableEq, Repr

/-- The argument of `SET_T` or `SET_H` (R14, R122): a real number, or one of the three non-finite values of the source's
type "float" (R335). -/
inductive HostValue where
  | finite (v : Number)
  | nan
  | posInf
  | negInf
  deriving DecidableEq, Repr

end Sys2Proof
end

