-- ==== Sys2Proof/Machine/Event.lean ====
section
/-! DEFINITION. What arrives at the block's two ports (spec/00_scope R13, R14) and the power input. -/

namespace Sys2Proof

/-- R13, R14: the four kinds of event. A read carries the number of bytes the controller clocks (`R` is `none`, `R:k`
is `some k`, R127), which the block does not see. -/
inductive Event where
  | busWrite (b : List Byte)
  | busRead (clocks : Option Nat)
  | setT (v : HostValue)
  | setH (v : HostValue)
  deriving DecidableEq, Repr

/-- What the environment can do to an instance: an event, or a power cycle (R344, R360). -/
inductive Input where
  | event (e : Event)
  | powerCycle
  deriving DecidableEq, Repr

end Sys2Proof
end

