-- ==== Sys2Proof/Config.lean ====
section
/-! DEFINITION. The configuration parameters of spec/00_scope R15 as plain data, and the values the spec leaves OPEN as
opaque constants. The default values stand in Machine/Parameters.lean. -/

namespace Sys2Proof

/-- R2: the sensor an instance emulates, fixed for its life. -/
inductive Family where
  | bme280
  | sht31
  | sht4x
  deriving DecidableEq, Repr, Inhabited

/-- R118: the kinds of command a `CMD_TABLE` maps codes to. -/
inductive Kind where
  | measure
  | readSerial
  | readStatus
  | clearStatus
  | softReset
  | heaterOn
  | heaterOff
  | nop
  deriving DecidableEq, Repr, Inhabited

/-- R15: `CAL_IMAGE`, the calibration bytes by where they stand in the register file. R15 and C7 count 33 bytes, but the
addresses R15 lists are 24 + 1 + 7 = 32; the model holds those 32, and 0xA0 is plain storage that resets to 0x00, as R87's
map has it. DESIGN CHOICE, unsafe: log 35. -/
structure CalImage where
  /-- 0x88 to 0x9F: T1, T2, T3, P1 to P9. -/
  words : Vector Byte 24
  /-- 0xA1: H1. -/
  h1 : Byte
  /-- 0xE1 to 0xE7: H2 to H6. -/
  packed : Vector Byte 7
  deriving DecidableEq, Repr, Inhabited

/-- The parameters of R15 that differ between SHT31 and SHT4x. -/
structure ShtParams where
  /-- `CMD_TABLE`: pairs of a code and its kind. -/
  cmdTable : List (Word16 × Kind)
  /-- `HUM_OFFSET`. -/
  humOffset : Number
  /-- `HUM_SPAN`. -/
  humSpan : Number
  deriving DecidableEq, Repr

/-- R15: one instance's configuration. Both Sensirion families' parameters are held; `Config.params` picks the
instance's own. -/
structure Config where
  family : Family
  /-- `BUS_ADDR_SHT31`; the other families' bus addresses are fixed (R12). -/
  busAddrSht31 : BitVec 7
  cal : CalImage
  chipId : Byte
  statusInit : Byte
  pressAdc : Word20
  sht31 : ShtParams
  sht4x : ShtParams
  statusReset : Word16
  heaterMask : Word16
  serialW0 : Word16
  serialW1 : Word16
  consumeOnRead : Bool
  codecTolerance : Nat
  /-- `MAX_RX`: the platform's receive buffer, `none` for no limit. -/
  maxRx : Option Nat
  deriving DecidableEq, Repr

/-- What one codec computation depends on (R183, R185, R220, R221): the operands of the free deviation below. -/
inductive CodecCall where
  | bmeT (t : Number) (t1 t2 t3 : Int)
  | bmeH (h : Number) (tFine h1 h2 h3 h4 h5 h6 : Int)
  | shtT (t : Number)
  | shtH (h offset span : Number)
  deriving DecidableEq, Repr

/-- `CAL_IMAGE` of the configuration `State.reset` has: OPEN (R15, D18). DESIGN CHOICE, safe: log 4. -/
opaque Config.openCal : CalImage

/-- `PRESS_ADC` of the configuration `State.reset` has: OPEN (R15, D16). DESIGN CHOICE, safe: log 4. -/
opaque Config.openPressAdc : Word20

/-- `SERIAL_W0` of the configuration `State.reset` has: OPEN (R15, D30). DESIGN CHOICE, safe: log 4. -/
opaque Config.openSerialW0 : Word16

/-- `SERIAL_W1` of the configuration `State.reset` has: OPEN (R15, D30). DESIGN CHOICE, safe: log 4. -/
opaque Config.openSerialW1 : Word16

/-- `OVERREAD_BYTES` (R86, D31): what the platform supplies for the n-th byte clocked past the end of a reply, a byte
or a NACK (`none`). A free value: nothing constrains it. DESIGN CHOICE, safe: log 14. -/
opaque Config.overread : Nat → Option Byte

/-- How far a codec implementation's integer lies from the exact one, before it is cut to `CODEC_TOLERANCE` (R18, D5).
A free value of the call's operands: nothing constrains it. DESIGN CHOICE, safe: log 13. -/
opaque Config.codecDeviation : CodecCall → Int

end Sys2Proof
end

