-- ==== Sys2Proof/Machine/Bits.lean ====
section
/-! DEFINITION. Bit-field, byte-order and shift helpers (spec/00_scope R17, R18; spec/20_memory R81). -/

namespace Sys2Proof.Machine

/-- `w[15:8]`. -/
def hiByte (w : Word16) : Byte := w.extractLsb' 8 8

/-- `w[7:0]`. -/
def loByte (w : Word16) : Byte := w.extractLsb' 0 8

/-- `hi ‖ lo` (R17). -/
def joinBytes (hi lo : Byte) : Word16 := hi ++ lo

/-- `zext_16(b)` of R113. -/
def zext16 (b : Byte) : Word16 := b.setWidth 16

/-- `x >> k` on the integers: floor division by 2^k (R17). -/
def asr (x : Int) (k : Nat) : Int := x.fdiv (2 ^ k)

/-- `clamp(v, lo, hi)` of R18 on the integers. -/
def clampInt (v lo hi : Int) : Int := min (max v lo) hi

/-- The three bytes of PUT20 (R182), most significant first: `v[19:12]`, `v[11:4]`, `v[3:0] << 4`. -/
def put20Bytes (v : Word20) : List Byte :=
  [v.extractLsb' 12 8, v.extractLsb' 4 8, v.extractLsb' 0 4 ++ (0 : BitVec 4)]

end Sys2Proof.Machine
end

