-- ==== Sys2Proof/Machine/Crc.lean ====
section
/-! DEFINITION. The CRC-8 generator (spec/41_crc8 R170 to R173) and the frames built of it (spec/30_encoding R120). -/

namespace Sys2Proof.Machine

/-- One of the eight shifts of R170: most significant bit first, polynomial 0x31. -/
def crcShift (c : Byte) : Byte :=
  if c.msb then (c <<< 1) ^^^ 0x31#8 else c <<< 1

/-- The byte loop's body of R170: exclusive or, then eight shifts. -/
def crcByte (c m : Byte) : Byte := Nat.repeat crcShift 8 (c ^^^ m)

/-- R170: init 0xFF, bytes in bus order, no final exclusive or. -/
def crc8 (m : List Byte) : Byte := m.foldl crcByte 0xFF#8

/-- R170: `crc8(w)` of a 16-bit word, high byte first. -/
def crcWord (w : Word16) : Byte := crc8 [hiByte w, loByte w]

/-- R120: a word as it goes out: high byte, low byte, CRC of those two. -/
def frameWord (w : Word16) : List Byte := [hiByte w, loByte w, crcWord w]

end Sys2Proof.Machine
end

