-- ==== Sys2Proof/Machine/Reals.lean ====
section
/-! DEFINITION. The real numbers of spec/00_scope R14, R15 and R18. A host argument or a parameter is a real number, and no
plain data holds every real number; so State holds the name of one (`Number.real`), an opaque constant gives each name its
number, and every decision of the codecs is whether a polynomial of such numbers is at least 0. For rational numbers that
is computed; for the others the same opaque constant answers it, lawfully: log 3. -/

namespace Sys2Proof

/-- A polynomial of real numbers. -/
inductive RealTerm where
  | num (n : Number)
  | add (a b : RealTerm)
  | mul (a b : RealTerm)
  deriving DecidableEq, Repr

/-- The real number `n` is where the name `k` stands for `number k`. -/
def Number.valueIn (number : Nat → ℝ) : Number → ℝ
  | .rat q => (q : ℝ)
  | .real k => number k

/-- The real number `t` is where the name `k` stands for `number k`. -/
def RealTerm.valueIn (number : Nat → ℝ) : RealTerm → ℝ
  | .num n => n.valueIn number
  | .add a b => a.valueIn number + b.valueIn number
  | .mul a b => a.valueIn number * b.valueIn number

/-- `t` names no number that is not given as a rational. -/
def RealTerm.isRational : RealTerm → Bool
  | .num (.rat _) => true
  | .num (.real _) => false
  | .add a b => a.isRational && b.isRational
  | .mul a b => a.isRational && b.isRational

/-- The rational number `t` is where every name stands for 0; for a rational term, its value. -/
def RealTerm.rational : RealTerm → Rat
  | .num (.rat q) => q
  | .num (.real _) => 0
  | .add a b => a.rational + b.rational
  | .mul a b => a.rational * b.rational

/-- What the names stand for, and which polynomials of them are at least 0. -/
structure RealNumbers where
  number : Nat → ℝ
  nonneg : RealTerm → Bool
  lawful : ∀ t, nonneg t = true ↔ 0 ≤ t.valueIn number

theorem RealTerm.valueIn_zero (t : RealTerm) : t.valueIn (fun _ => 0) = (t.rational : ℝ) := by
  induction t with
  | num n => cases n <;> simp [valueIn, rational, Number.valueIn]
  | add a b ha hb => simp [valueIn, rational, ha, hb]
  | mul a b ha hb => simp [valueIn, rational, ha, hb]

/-- Every name stands for 0. -/
def RealNumbers.zero : RealNumbers where
  number := fun _ => 0
  nonneg := fun t => decide (0 ≤ t.rational)
  lawful := fun t => by rw [RealTerm.valueIn_zero]; simp

/-- The real numbers an instance meets that are not given as rationals. A free value: nothing constrains it. DESIGN CHOICE,
safe: log 3. -/
opaque Config.openReals : Option RealNumbers

/-- `Config.openReals`; the case `none` is one more way to name numbers. -/
def Config.reals : RealNumbers := Config.openReals.getD RealNumbers.zero

/-- The real number `n` is. -/
noncomputable def Number.value (n : Number) : ℝ := n.valueIn Config.reals.number

/-- The real number `t` is. -/
noncomputable def RealTerm.value (t : RealTerm) : ℝ := t.valueIn Config.reals.number

namespace RealTerm

/-- A rational number. -/
def ofRat (q : Rat) : RealTerm := .num (.rat q)

/-- q·t. -/
def scale (q : Rat) (t : RealTerm) : RealTerm := .mul (ofRat q) t

/-- −t. -/
def neg (t : RealTerm) : RealTerm := scale (-1) t

/-- a − b. -/
def sub (a b : RealTerm) : RealTerm := .add a (neg b)

/-- 0 ≤ t. -/
def isNonneg (t : RealTerm) : Bool := if t.isRational then decide (0 ≤ t.rational) else Config.reals.nonneg t

/-- 0 < t. -/
def isPos (t : RealTerm) : Bool := !(neg t).isNonneg

/-- t = 0. -/
def isZero (t : RealTerm) : Bool := t.isNonneg && (neg t).isNonneg

end RealTerm

/-- q < n. -/
def Number.above (n : Number) (q : Rat) : Bool := (RealTerm.sub (.num n) (.ofRat q)).isPos

/-- n < q. -/
def Number.below (n : Number) (q : Rat) : Bool := (RealTerm.sub (.ofRat q) (.num n)).isPos

/-- `clamp(n, lo, hi)` of R18, for lo ≤ hi. -/
def Number.clamp (n : Number) (lo hi : Rat) : Number :=
  if n.below lo then .rat lo else if n.above hi then .rat hi else n

end Sys2Proof
end

