-- ==== Sys2Proof/Machine/Parameters.lean ====
section
/-! DEFINITION. What the parameters of spec/00_scope R15 amount to: the default tables and values, the command lookup,
the well-formedness of a configuration, and the reset image of the register file (spec/70_reset R361, R362). -/

namespace Sys2Proof

/-- R110: the families that take commands. -/
def Family.isSensirion : Family → Bool
  | .bme280 => false
  | .sht31 => true
  | .sht4x => true

namespace Config

/-- R116: the default SHT4x `CMD_TABLE`. Every code but 0xFD is PRESUMED, unsafe: log 11. -/
def sht4xTable : List (Word16 × Kind) :=
  [(0x00FD#16, .measure), (0x00F6#16, .measure), (0x00E0#16, .measure), (0x0039#16, .measure),
   (0x0032#16, .measure), (0x002F#16, .measure), (0x0024#16, .measure), (0x001E#16, .measure),
   (0x0015#16, .measure), (0x0089#16, .readSerial), (0x0094#16, .softReset)]

/-- R117: the default SHT31 `CMD_TABLE`. PRESUMED, unsafe: log 11. -/
def sht31Table : List (Word16 × Kind) :=
  [(0x2C06#16, .measure), (0x2C0D#16, .measure), (0x2C10#16, .measure), (0x2400#16, .measure),
   (0x240B#16, .measure), (0x2416#16, .measure), (0x3780#16, .readSerial), (0xF32D#16, .readStatus),
   (0x3041#16, .clearStatus), (0x30A2#16, .softReset), (0x306D#16, .heaterOn), (0x3066#16, .heaterOff)]

/-- R15, R221: the SHT31 defaults, offset 0 and span 100. PRESUMED, unsafe: log 9. -/
def sht31Defaults : ShtParams := { cmdTable := sht31Table, humOffset := .rat 0, humSpan := .rat 100 }

/-- R15, R221: the SHT4x defaults, offset 6 and span 125. PRESUMED, unsafe: log 9. -/
def sht4xDefaults : ShtParams := { cmdTable := sht4xTable, humOffset := .rat 6, humSpan := .rat 125 }

/-- R220, R222: `T_OFFSET`, fixed by the source. -/
def tOffset : Rat := 45

/-- R220, R222: `T_SPAN`, fixed by the source. -/
def tSpan : Rat := 175

/-- An instance of family `f` with every default of R15; the OPEN parameters are opaque (log 4). The defaults are the
spec's, PRESUMED or decided there, unsafe: logs 6, 7, 9, 10, 11, 12, 13, 15, 31. -/
def shipped (f : Family) : Config where
  family := f
  busAddrSht31 := 0x44#7
  cal := openCal
  chipId := 0x60#8
  statusInit := 0x00#8
  pressAdc := openPressAdc
  sht31 := sht31Defaults
  sht4x := sht4xDefaults
  statusReset := 0x8008#16
  heaterMask := 0x2000#16
  serialW0 := openSerialW0
  serialW1 := openSerialW1
  consumeOnRead := true
  codecTolerance := 0
  maxRx := none

/-- R12: the bus address the platform answers to. -/
def busAddr (c : Config) : BitVec 7 :=
  match c.family with
  | .bme280 => 0x76#7
  | .sht4x => 0x44#7
  | .sht31 => c.busAddrSht31

/-- The Sensirion parameters of the instance's own family. -/
def params (c : Config) : ShtParams :=
  match c.family with
  | .sht31 => c.sht31
  | .sht4x => c.sht4x
  | .bme280 => c.sht4x

/-- R114, D19: how many bytes a command has: one on SHT4x, two on SHT31. -/
def need (c : Config) : Nat :=
  match c.family with
  | .sht31 => 2
  | .sht4x => 1
  | .bme280 => 1

/-- `CMD_TABLE(code)` of R280 and R290; `none` where the code is absent. -/
def kindOf (c : Config) (code : Word16) : Option Kind :=
  (c.params.cmdTable.find? fun e => e.1 == code).map fun e => e.2

/-- R118 (c): the kinds a SHT4x table may use. -/
def kindAllowed (f : Family) (k : Kind) : Bool :=
  match f with
  | .sht4x => k == .measure || k == .readSerial || k == .softReset || k == .nop
  | .sht31 => true
  | .bme280 => true

/-- R118 (a), (b), (c): the table maps no code to two kinds, holds no code 0x0000 and, on SHT4x, no kind of SHT31's. -/
def tableWellFormed (f : Family) (t : List (Word16 × Kind)) : Bool :=
  (t.all fun e => t.all fun e' => e.1 != e'.1 || e.2 == e'.2) && (t.all fun e => e.1 != 0#16) &&
    (t.all fun e => kindAllowed f e.2)

/-- R365 (1): the configurations a model accepts. R118 and R222 are about the Sensirion families; every BME280
configuration is well formed. -/
def wellFormed (c : Config) : Bool :=
  match c.family with
  | .bme280 => true
  | .sht31 => tableWellFormed .sht31 c.sht31.cmdTable && c.sht31.humSpan.above 0
  | .sht4x => tableWellFormed .sht4x c.sht4x.cmdTable && c.sht4x.humSpan.above 0

/-- R362: the byte of the register file at address `a` after reset: `CAL_IMAGE`, `CHIP_ID`, `STATUS_INIT` and
`PUT20(0xF7, PRESS_ADC)` at their addresses and 0x00 elsewhere. It is also what an unlisted address of State's memory
reads as: log 20. -/
def resetByte (c : Config) (a : Nat) : Byte :=
  if 0x88 ≤ a ∧ a ≤ 0x9F then c.cal.words.toList.getD (a - 0x88) 0#8
  else if a = 0xA1 then c.cal.h1
  else if a = 0xD0 then c.chipId
  else if 0xE1 ≤ a ∧ a ≤ 0xE7 then c.cal.packed.toList.getD (a - 0xE1) 0#8
  else if a = 0xF3 then c.statusInit
  else if 0xF7 ≤ a ∧ a ≤ 0xF9 then (Machine.put20Bytes c.pressAdc).getD (a - 0xF7) 0#8
  else 0x00#8

/-- R43, R173: the serial frame, computed from the two seeds. -/
def serialFrame (c : Config) : Vector Byte 6 :=
  #v[Machine.hiByte c.serialW0, Machine.loByte c.serialW0, Machine.crcWord c.serialW0,
     Machine.hiByte c.serialW1, Machine.loByte c.serialW1, Machine.crcWord c.serialW1]

end Config
end Sys2Proof
end

