-- ==== Sys2Proof/Syntax.lean ====
section
/-! DEFINITION. The events of the block as instructions: one constructor per row of spec/opcode_table.json. -/

namespace Sys2Proof

/-- One event the block can receive. The constructor's docstring names the row's rule. `clocks` is how many bytes the
controller clocks out of a read, `none` for exactly the offered ones (R86, R127); it is not delivered to the block. -/
inductive Instr where
  /-- R250, the general write: any bytes. -/
  | bme280BusWrite (b : List Byte)
  /-- R251: a write of no byte. -/
  | bme280WriteEmpty
  /-- R252: one byte, the new address. -/
  | bme280Select (a : Byte)
  /-- R253: two bytes or more, address and value in turn. -/
  | bme280WritePairs (a v : Byte) (rest : List Byte)
  /-- R254. -/
  | bme280BusRead (clocks : Option Nat)
  /-- R300, code 0xFD. -/
  | sht4xMeasHp
  /-- R301, code 0xF6. -/
  | sht4xMeasMp
  /-- R302, code 0xE0. -/
  | sht4xMeasLp
  /-- R303, code 0x39. -/
  | sht4xMeasH200Long
  /-- R304, code 0x32. -/
  | sht4xMeasH200Short
  /-- R305, code 0x2F. -/
  | sht4xMeasH110Long
  /-- R306, code 0x24. -/
  | sht4xMeasH110Short
  /-- R307, code 0x1E. -/
  | sht4xMeasH20Long
  /-- R308, code 0x15. -/
  | sht4xMeasH20Short
  /-- R309, code 0x89. -/
  | sht4xReadSerial
  /-- R310, code 0x94. -/
  | sht4xSoftReset
  /-- R311, code 0x2C06. -/
  | sht31MeasHighCs
  /-- R312, code 0x2C0D. -/
  | sht31MeasMedCs
  /-- R313, code 0x2C10. -/
  | sht31MeasLowCs
  /-- R314, code 0x2400. -/
  | sht31MeasHigh
  /-- R315, code 0x240B. -/
  | sht31MeasMed
  /-- R316, code 0x2416. -/
  | sht31MeasLow
  /-- R317, code 0x3780. -/
  | sht31ReadSerial
  /-- R318, code 0xF32D. -/
  | sht31ReadStatus
  /-- R319, code 0x3041. -/
  | sht31ClearStatus
  /-- R320, code 0x30A2. -/
  | sht31SoftReset
  /-- R321, code 0x306D. -/
  | sht31HeaterOn
  /-- R322, code 0x3066. -/
  | sht31HeaterOff
  /-- R280, the general write: any bytes. -/
  | shtBusWrite (b : List Byte)
  /-- R290. -/
  | shtBusRead (clocks : Option Nat)
  /-- R325: a write of the wrong count. -/
  | shtInvalidCount (b : List Byte)
  /-- R324: a write of the right count whose code is in no table. -/
  | shtUnrecognized (code : Word16)
  /-- R323: a code that a supplied table maps to NOP. -/
  | shtNop (code : Word16)
  /-- R183. -/
  | bme280SetT (t : HostValue)
  /-- R185. -/
  | bme280SetH (h : HostValue)
  /-- R220. -/
  | shtSetT (t : HostValue)
  /-- R221. -/
  | shtSetH (h : HostValue)
  deriving DecidableEq, Repr

end Sys2Proof
end

