-- ==== Sys2Proof/WellFormed.lean ====
section
/-! DEFINITION. Which instructions an instance can receive: the family, the byte count, the table entry and the finite
argument that the instruction's row asks for. -/

namespace Sys2Proof

/-- R14, R122: a host argument the block accepts. -/
def HostValue.isFinite : HostValue → Bool
  | .finite _ => true
  | .nan => false
  | .posInf => false
  | .negInf => false

/-- R116, R117: the instance is of family `f` and its table maps `code` to kind `k`. -/
def Config.admits (c : Config) (f : Family) (code : Word16) (k : Kind) : Bool :=
  c.family == f && c.kindOf code == some k

/-- R113, R114: on SHT4x a code has its high byte 0. -/
def Config.codeFits (c : Config) (code : Word16) : Bool :=
  c.family == .sht31 || (c.family == .sht4x && code.toNat < 256)

/-- The event `i` stands for can arrive at an instance with configuration `c`, and its operands are those of its row. -/
def Instr.wellFormed (c : Config) : Instr → Bool
  | .bme280BusWrite _ => c.family == .bme280
  | .bme280WriteEmpty => c.family == .bme280
  | .bme280Select _ => c.family == .bme280
  | .bme280WritePairs _ _ _ => c.family == .bme280
  | .bme280BusRead _ => c.family == .bme280
  | .sht4xMeasHp => c.admits .sht4x 0x00FD#16 .measure
  | .sht4xMeasMp => c.admits .sht4x 0x00F6#16 .measure
  | .sht4xMeasLp => c.admits .sht4x 0x00E0#16 .measure
  | .sht4xMeasH200Long => c.admits .sht4x 0x0039#16 .measure
  | .sht4xMeasH200Short => c.admits .sht4x 0x0032#16 .measure
  | .sht4xMeasH110Long => c.admits .sht4x 0x002F#16 .measure
  | .sht4xMeasH110Short => c.admits .sht4x 0x0024#16 .measure
  | .sht4xMeasH20Long => c.admits .sht4x 0x001E#16 .measure
  | .sht4xMeasH20Short => c.admits .sht4x 0x0015#16 .measure
  | .sht4xReadSerial => c.admits .sht4x 0x0089#16 .readSerial
  | .sht4xSoftReset => c.admits .sht4x 0x0094#16 .softReset
  | .sht31MeasHighCs => c.admits .sht31 0x2C06#16 .measure
  | .sht31MeasMedCs => c.admits .sht31 0x2C0D#16 .measure
  | .sht31MeasLowCs => c.admits .sht31 0x2C10#16 .measure
  | .sht31MeasHigh => c.admits .sht31 0x2400#16 .measure
  | .sht31MeasMed => c.admits .sht31 0x240B#16 .measure
  | .sht31MeasLow => c.admits .sht31 0x2416#16 .measure
  | .sht31ReadSerial => c.admits .sht31 0x3780#16 .readSerial
  | .sht31ReadStatus => c.admits .sht31 0xF32D#16 .readStatus
  | .sht31ClearStatus => c.admits .sht31 0x3041#16 .clearStatus
  | .sht31SoftReset => c.admits .sht31 0x30A2#16 .softReset
  | .sht31HeaterOn => c.admits .sht31 0x306D#16 .heaterOn
  | .sht31HeaterOff => c.admits .sht31 0x3066#16 .heaterOff
  | .shtBusWrite _ => c.family.isSensirion
  | .shtBusRead _ => c.family.isSensirion
  | .shtInvalidCount b => c.family.isSensirion && b.length != c.need
  | .shtUnrecognized code => c.codeFits code && (c.kindOf code).isNone
  | .shtNop code => c.codeFits code && c.kindOf code == some .nop
  | .bme280SetT t => c.family == .bme280 && t.isFinite
  | .bme280SetH h => c.family == .bme280 && h.isFinite
  | .shtSetT t => c.family.isSensirion && t.isFinite
  | .shtSetH h => c.family.isSensirion && h.isFinite

/-- The two general rows (R250, R280), whose transfers the other write rows cover case by case: log 21. -/
def Instr.isGeneralRow : Instr → Bool
  | .bme280BusWrite _ => true
  | .shtBusWrite _ => true
  | .bme280WriteEmpty | .bme280Select _ | .bme280WritePairs _ _ _ | .bme280BusRead _ => false
  | .sht4xMeasHp | .sht4xMeasMp | .sht4xMeasLp | .sht4xMeasH200Long | .sht4xMeasH200Short => false
  | .sht4xMeasH110Long | .sht4xMeasH110Short | .sht4xMeasH20Long | .sht4xMeasH20Short => false
  | .sht4xReadSerial | .sht4xSoftReset => false
  | .sht31MeasHighCs | .sht31MeasMedCs | .sht31MeasLowCs | .sht31MeasHigh | .sht31MeasMed | .sht31MeasLow => false
  | .sht31ReadSerial | .sht31ReadStatus | .sht31ClearStatus | .sht31SoftReset => false
  | .sht31HeaterOn | .sht31HeaterOff => false
  | .shtBusRead _ | .shtInvalidCount _ | .shtUnrecognized _ | .shtNop _ => false
  | .bme280SetT _ | .bme280SetH _ | .shtSetT _ | .shtSetH _ => false

end Sys2Proof
end

