-- ==== Sys2Proof/Decode.lean ====
section
/-! DEFINITION. The decoder of transactions (spec/30_encoding R110 to R119, R123 to R126), total on every event of
every configuration, the encoder, and the decoding of a word of the opcode table. -/

namespace Sys2Proof

/-- A row of R116 or R117: the code, the kind and the instruction. -/
structure CommandRow where
  code : Word16
  kind : Kind
  instr : Instr
  deriving DecidableEq, Repr

/-- R116. -/
def sht4xRows : List CommandRow :=
  [⟨0x00FD#16, .measure, .sht4xMeasHp⟩, ⟨0x00F6#16, .measure, .sht4xMeasMp⟩,
   ⟨0x00E0#16, .measure, .sht4xMeasLp⟩, ⟨0x0039#16, .measure, .sht4xMeasH200Long⟩,
   ⟨0x0032#16, .measure, .sht4xMeasH200Short⟩, ⟨0x002F#16, .measure, .sht4xMeasH110Long⟩,
   ⟨0x0024#16, .measure, .sht4xMeasH110Short⟩, ⟨0x001E#16, .measure, .sht4xMeasH20Long⟩,
   ⟨0x0015#16, .measure, .sht4xMeasH20Short⟩, ⟨0x0089#16, .readSerial, .sht4xReadSerial⟩,
   ⟨0x0094#16, .softReset, .sht4xSoftReset⟩]

/-- R117. -/
def sht31Rows : List CommandRow :=
  [⟨0x2C06#16, .measure, .sht31MeasHighCs⟩, ⟨0x2C0D#16, .measure, .sht31MeasMedCs⟩,
   ⟨0x2C10#16, .measure, .sht31MeasLowCs⟩, ⟨0x2400#16, .measure, .sht31MeasHigh⟩,
   ⟨0x240B#16, .measure, .sht31MeasMed⟩, ⟨0x2416#16, .measure, .sht31MeasLow⟩,
   ⟨0x3780#16, .readSerial, .sht31ReadSerial⟩, ⟨0xF32D#16, .readStatus, .sht31ReadStatus⟩,
   ⟨0x3041#16, .clearStatus, .sht31ClearStatus⟩, ⟨0x30A2#16, .softReset, .sht31SoftReset⟩,
   ⟨0x306D#16, .heaterOn, .sht31HeaterOn⟩, ⟨0x3066#16, .heaterOff, .sht31HeaterOff⟩]

/-- The row of `rows` with this code and this kind. -/
def rowOf (rows : List CommandRow) (code : Word16) (k : Kind) : Option CommandRow :=
  rows.find? fun r => r.code == code && r.kind == k

/-- R124: a Sensirion code of the right count. Absent from the table: unrecognized. Mapped to NOP: the NOP row. Mapped
as a row of R116 or R117 has it: that row. A supplied table that maps another code, or maps a row's code to another
kind, makes it an instance of the general rule R280 (log 21). -/
def decodeCode (c : Config) (rows : List CommandRow) (code : Word16) (b : List Byte) : Instr :=
  match c.kindOf code with
  | none => .shtUnrecognized code
  | some .nop => .shtNop code
  | some k =>
    match rowOf rows code k with
    | some r => r.instr
    | none => .shtBusWrite b

/-- R110, R111, R113 to R115, R125: what a write transfer of the bytes `b` is. -/
def decodeWrite (c : Config) (b : List Byte) : Instr :=
  match c.family with
  | .bme280 =>
    match b with
    | [] => .bme280WriteEmpty
    | [a] => .bme280Select a
    | a :: v :: rest => .bme280WritePairs a v rest
  | .sht4x =>
    match b with
    | [b0] => decodeCode c sht4xRows (Machine.zext16 b0) b
    | [] => .shtInvalidCount b
    | _ :: _ :: _ => .shtInvalidCount b
  | .sht31 =>
    match b with
    | [b0, b1] => decodeCode c sht31Rows (Machine.joinBytes b0 b1) b
    | [] => .shtInvalidCount b
    | [_] => .shtInvalidCount b
    | _ :: _ :: _ :: _ => .shtInvalidCount b

/-- R125: every event of every configuration is exactly one instruction; the fixed family is the only thing beside the
event that decides which (R126). -/
def decode (c : Config) (e : Event) : Instr :=
  match e with
  | .busWrite b => decodeWrite c b
  | .busRead k =>
    match c.family with
    | .bme280 => .bme280BusRead k
    | .sht31 => .shtBusRead k
    | .sht4x => .shtBusRead k
  | .setT v =>
    match c.family with
    | .bme280 => .bme280SetT v
    | .sht31 => .shtSetT v
    | .sht4x => .shtSetT v
  | .setH v =>
    match c.family with
    | .bme280 => .bme280SetH v
    | .sht31 => .shtSetH v
    | .sht4x => .shtSetH v

/-- The bytes of a code that no row names: one on SHT4x (R113), high then low on SHT31 (R114). -/
def codeBytes (c : Config) (code : Word16) : List Byte :=
  match c.family with
  | .sht31 => [Machine.hiByte code, Machine.loByte code]
  | .sht4x => [Machine.loByte code]
  | .bme280 => [Machine.loByte code]

/-- The transaction of an instruction, written from the formats of R110 and the code columns of R116 and R117. -/
def encode (c : Config) : Instr → Event
  | .bme280BusWrite b => .busWrite b
  | .bme280WriteEmpty => .busWrite []
  | .bme280Select a => .busWrite [a]
  | .bme280WritePairs a v rest => .busWrite (a :: v :: rest)
  | .bme280BusRead k => .busRead k
  | .sht4xMeasHp => .busWrite [0xFD#8]
  | .sht4xMeasMp => .busWrite [0xF6#8]
  | .sht4xMeasLp => .busWrite [0xE0#8]
  | .sht4xMeasH200Long => .busWrite [0x39#8]
  | .sht4xMeasH200Short => .busWrite [0x32#8]
  | .sht4xMeasH110Long => .busWrite [0x2F#8]
  | .sht4xMeasH110Short => .busWrite [0x24#8]
  | .sht4xMeasH20Long => .busWrite [0x1E#8]
  | .sht4xMeasH20Short => .busWrite [0x15#8]
  | .sht4xReadSerial => .busWrite [0x89#8]
  | .sht4xSoftReset => .busWrite [0x94#8]
  | .sht31MeasHighCs => .busWrite [0x2C#8, 0x06#8]
  | .sht31MeasMedCs => .busWrite [0x2C#8, 0x0D#8]
  | .sht31MeasLowCs => .busWrite [0x2C#8, 0x10#8]
  | .sht31MeasHigh => .busWrite [0x24#8, 0x00#8]
  | .sht31MeasMed => .busWrite [0x24#8, 0x0B#8]
  | .sht31MeasLow => .busWrite [0x24#8, 0x16#8]
  | .sht31ReadSerial => .busWrite [0x37#8, 0x80#8]
  | .sht31ReadStatus => .busWrite [0xF3#8, 0x2D#8]
  | .sht31ClearStatus => .busWrite [0x30#8, 0x41#8]
  | .sht31SoftReset => .busWrite [0x30#8, 0xA2#8]
  | .sht31HeaterOn => .busWrite [0x30#8, 0x6D#8]
  | .sht31HeaterOff => .busWrite [0x30#8, 0x66#8]
  | .shtBusWrite b => .busWrite b
  | .shtBusRead k => .busRead k
  | .shtInvalidCount b => .busWrite b
  | .shtUnrecognized code => .busWrite (codeBytes c code)
  | .shtNop code => .busWrite (codeBytes c code)
  | .bme280SetT t => .setT t
  | .bme280SetH h => .setH h
  | .shtSetT t => .setT t
  | .shtSetH h => .setH h

/-- The `n` low bytes of `w`, least significant first: bytes on the bus as the opcode table numbers them. -/
def tableBytes (n w : Nat) : List Byte := (List.range n).map fun i => BitVec.ofNat 8 (w >>> (8 * i))

/-- The family and the transfer that `nbits` bits `w` of an opcode-table row stand for. A 16-bit word that is a code of
R117 is a SHT31 command, whose high byte goes first (R114); an 8-bit word that is a code of R116 is a SHT4x command
(R113); any other word is a BME280 write of its bytes (R111), of none where `nbits` is 0. DESIGN CHOICE, safe: log 22. -/
def tableTransfer (nbits w : Nat) : Family × List Byte :=
  let code := BitVec.ofNat 16 w
  if nbits = 16 ∧ (sht31Rows.any fun r => r.code == code) then (.sht31, [Machine.hiByte code, Machine.loByte code])
  else if nbits = 8 ∧ (sht4xRows.any fun r => r.code == Machine.zext16 (Machine.loByte code)) then
    (.sht4x, [Machine.loByte code])
  else (.bme280, tableBytes ((nbits + 7) / 8) w)

/-- The instruction the decoder reads from a word of the opcode table, at an instance of the word's family with the
default command tables. -/
def decodeTableWord (nbits w : Nat) : Option Instr :=
  some (decodeWrite (Config.shipped (tableTransfer nbits w).1) (tableTransfer nbits w).2)

end Sys2Proof
end

