-- ==== Sys2Proof/Machine/State.lean ====
section
/-! DEFINITION. The state of one instance (spec/10_state), the reasons a step can stop, and the state after power-on
(spec/70_reset R360 to R364). -/

namespace Sys2Proof.Machine

/-- R33, R44: the protocol states. -/
inductive ProtocolState where
  | idle
  | addressLatched
  deriving DecidableEq, Repr

/-- R331: the four error classes. A class changes nothing beyond what its rule says. -/
inductive ErrorClass where
  | badCount
  | unknownCommand
  | clamped
  | degenerate
  deriving DecidableEq, Repr

/-- The reasons for a fault: there are none, since no event is fatal, stuck or hung (R330, R339). Safe: log 30. -/
inductive Fault where
  deriving DecidableEq, Repr

/-- The reasons a step is refused. -/
inductive Refusal where
  /-- An arm of `exec` without a meaning; none is left. Safe. -/
  | notModelled (mnemonic : String)
  /-- The event's family is not the instance's (R2, R110): no such event exists there. Raised by every meaning, never by
  `step`, whose decoder knows the family. Safe: log 18. -/
  | wrongFamily
  /-- The configuration breaks R118 or R222, and a model refuses it (R365). Raised by every meaning and by a power
  cycle. Safe: log 19. -/
  | illFormedConfig
  /-- `SET_T` or `SET_H` with a NaN or an infinity: a model gives such a call no step (R335). Raised by the four host
  calls. Safe: log 23. -/
  | nonFiniteArgument
  deriving DecidableEq, Repr

/-- The state of one instance. The configuration is constant (R30). The fields `x`, `ca`, `ps` are the BME280's record,
`cmd`, `tRaw`, `hRaw`, `status`, `serial` the Sensirion's; those of an absent family hold their reset values and no event
reaches them (log 18). The last five fields are the model's own: what has arrived and what the last event put out. -/
structure State where
  /-- R15, R30: the instance's parameters. -/
  cfg : Config
  /-- R31: the register file, the bytes that differ from the reset image (log 20). -/
  x : List Host.Cell
  /-- R32: `CA`, current_address. -/
  ca : Byte
  /-- R33: `PS` of the BME280. -/
  ps : ProtocolState
  /-- R39: `CMD`. -/
  cmd : Word16
  /-- R40: `T_RAW`. -/
  tRaw : Word16
  /-- R41: `H_RAW`. -/
  hRaw : Word16
  /-- R42: `STATUS` of the SHT31. -/
  status : Word16
  /-- R43: `SERIAL`. -/
  serial : Vector Byte 6
  /-- What has arrived and not run yet, oldest first (R88): log 2. -/
  input : List Input
  /-- R20: what the last event emitted. -/
  offered : List Byte
  /-- R86: what the controller clocked out of the last event, `none` for a NACK. -/
  received : List (Option Byte)
  /-- R331, R333: the error classes the last event met, in order: the log outside the block. No event reads it. -/
  notes : List ErrorClass
  /-- How many free bytes (`Config.overread`) the platform has supplied: log 14. -/
  free : Nat
  deriving DecidableEq, Repr

/-- R362, R363: the state of an instance with configuration `c` right after power-on. -/
def State.powerOn (c : Config) : State where
  cfg := c
  x := []
  ca := 0x00#8
  ps := .idle
  cmd := 0x0000#16
  tRaw := 0x0000#16
  hRaw := 0x0000#16
  status := c.statusReset
  serial := c.serialFrame
  input := []
  offered := []
  received := []
  notes := []
  free := 0

/-- The machine right after reset: a BME280 (DESIGN CHOICE, unsafe: log 5) with the parameters of `Config.shipped`. -/
def State.reset : State := State.powerOn (Config.shipped .bme280)

end Sys2Proof.Machine
end

