-- ==== Sys2Proof/Machine/Ops.lean ====
section
/-! DEFINITION. The named operations over the register file, the outputs and the input (spec/00_scope R19, R20), and the
power-on reset (spec/70_reset R360). The block takes no exception and returns from none (spec/60_exceptions R330, R339),
so there is no such operation. -/

namespace Sys2Proof.Machine

/-- The byte at address `a` of a list of cells whose unlisted bytes are `d`. -/
def Memory.read (d : Nat → Byte) : List Host.Cell → Nat → Byte
  | [], a => d a
  | (k, v) :: rest, a => if k = a then v else Memory.read d rest a

/-- The list in which the byte at `a` is `v`: the cells stay in rising order, and a byte that is `d a` is not listed. -/
def Memory.write (d : Nat → Byte) : List Host.Cell → Nat → Byte → List Host.Cell
  | [], a, v => if v = d a then [] else [(a, v)]
  | (k, w) :: rest, a, v =>
    if k < a then (k, w) :: Memory.write d rest a v
    else if k = a then (if v = d a then rest else (a, v) :: rest)
    else (if v = d a then (k, w) :: rest else (a, v) :: (k, w) :: rest)

/-- The canonical form: addresses strictly rising and within the 256 of R80, no cell equal to what is read unlisted. -/
abbrev Memory.wf (d : Nat → Byte) (m : List Host.Cell) : Prop :=
  m.Pairwise (fun e e' => e.1 < e'.1) ∧ ∀ e ∈ m, e.1 < 256 ∧ e.2 ≠ d e.1

/-- R19: `x[a]`. -/
def State.readByte (s : State) (a : Nat) : Byte := Memory.read s.cfg.resetByte s.x a

/-- R19: `x[a] <- v`. -/
def State.writeByte (s : State) (a : Nat) (v : Byte) : State :=
  { s with x := Memory.write s.cfg.resetByte s.x a v }

/-- R19: `MemRead(a, n)`. -/
def State.memRead (s : State) (a n : Nat) : List Byte := (List.range n).map fun i => s.readByte (a + i)

/-- R19: `MemWrite(a, n, v)`, the bytes of `v` given most significant first. -/
def State.memWrite (s : State) (a : Nat) : List Byte → State
  | [] => s
  | v :: rest => (s.writeByte a v).memWrite (a + 1) rest

/-- R182: `PUT20(a, v)`. -/
def State.put20 (s : State) (a : Nat) (v : Word20) : State := s.memWrite a (put20Bytes v)

/-- The register file is in canonical form. -/
abbrev State.memWf (s : State) : Prop := Memory.wf s.cfg.resetByte s.x

/-- R20: an event starts with nothing emitted and nothing noted. -/
def State.begin (s : State) : State := { s with offered := [], received := [], notes := [] }

/-- R20: `note`, for the classes in the order of R333. -/
def State.note (s : State) (classes : List ErrorClass) : State := { s with notes := s.notes ++ classes }

/-- R86: how many bytes past the `n` offered ones the controller clocks. -/
def overreadCount (n : Nat) : Option Nat → Nat
  | none => 0
  | some k => k - n

/-- R86: what a controller that clocks `clocks` bytes of the offered ones receives, the bytes past the end from `past`. -/
def clockOut (offered : List Byte) (clocks : Option Nat) (past : Nat → Option Byte) : List (Option Byte) :=
  match clocks with
  | none => offered.map some
  | some k => (offered.take k).map some ++ (List.range (overreadCount offered.length (some k))).map past

/-- R20, R86: `emit`, and what the controller clocks of it. -/
def State.emit (s : State) (bytes : List Byte) (clocks : Option Nat) : State :=
  { s with
    offered := bytes
    received := clockOut bytes clocks fun i => Config.overread (s.free + i)
    free := s.free + overreadCount bytes.length clocks }

/-- R39: `CMD <- code`. -/
def State.latch (s : State) (code : Word16) : State := { s with cmd := code }

/-- R33, R44: `PS`: stored on the BME280, derived from `CMD` on the Sensirion families. -/
def State.protocolState (s : State) : ProtocolState :=
  match s.cfg.family with
  | .bme280 => s.ps
  | .sht31 => if s.cmd = 0#16 then .idle else .addressLatched
  | .sht4x => if s.cmd = 0#16 then .idle else .addressLatched

/-- Runs the body of an event of the families `ok`, from `State.begin`. An instance of another family has no such event
(R2, R110: log 18), and a configuration that breaks R118 or R222 is refused (R365: log 19). -/
def onFamily (ok : Family → Bool) (s : State) (body : State → State) : Host.Outcome State Fault Refusal :=
  if s.cfg.wellFormed then
    if ok s.cfg.family then .next (body s.begin) else .refused .wrongFamily
  else .refused .illFormedConfig

/-- Runs the body of a host call on its finite argument; R335 gives a NaN or an infinity no step (log 23). -/
def onHostCall (ok : Family → Bool) (v : HostValue) (s : State) (body : Number → State → State) :
    Host.Outcome State Fault Refusal :=
  match v with
  | .finite q => onFamily ok s (body q)
  | .nan => .refused .nonFiniteArgument
  | .posInf => .refused .nonFiniteArgument
  | .negInf => .refused .nonFiniteArgument

/-- The family tests of the meanings. -/
def isBme280 (f : Family) : Bool := f == .bme280

/-- As `isBme280`, for SHT31. -/
def isSht31 (f : Family) : Bool := f == .sht31

/-- As `isBme280`, for SHT4x. -/
def isSht4x (f : Family) : Bool := f == .sht4x

/-- R88: the oldest arrival and the state without it; nothing has arrived: `none`. -/
def nextInput (s : State) : Option (Input × State) :=
  match s.input with
  | [] => none
  | i :: rest => some (i, { s with input := rest })

/-- R344, R360: power is lost and comes back: every element takes its reset value; what the environment has sent stays
queued, and the platform's free bytes go on (log 28). -/
def powerCycle (s : State) : Host.Outcome State Fault Refusal :=
  if s.cfg.wellFormed then
    .next { State.powerOn s.cfg with input := s.input, free := s.free }
  else .refused .illFormedConfig

end Sys2Proof.Machine
end

