-- ==== Sys2Proof/Machine/Bme280Bus.lean ====
section
/-! DEFINITION. The BME280 bus events (spec/44_bme280_bus R250 to R258). No byte, address or count is illegal (R123,
R256), and none emits an error (R258). -/

namespace Sys2Proof.Machine

/-- R250: the loop over the bytes from index `i`: an even index sets `CA`, an odd one stores at `CA`. -/
def State.busBytes (s : State) (i : Nat) : List Byte → State
  | [] => s
  | b :: rest => (if i % 2 = 0 then { s with ca := b } else s.writeByte s.ca.toNat b).busBytes (i + 1) rest

/-- R253: the transfer as pairs, each written at its own address; a last byte without a value sets `CA` alone. -/
def State.writePairs (s : State) : List Byte → State
  | [] => s
  | [a] => { s with ca := a }
  | a :: v :: rest => (({ s with ca := a }).writeByte a.toNat v).writePairs rest

/-- R250: `PS <- AddressLatched` where n ≥ 1. -/
def State.latchAddress (s : State) : State := { s with ps := .addressLatched }

/-- BME280.BUS_WRITE (R250). -/
def execBme280BusWrite (b : List Byte) (s : State) : Host.Outcome State Fault Refusal :=
  onFamily isBme280 s fun s => if b.length = 0 then s.busBytes 0 b else (s.busBytes 0 b).latchAddress

/-- BME280.WRITE_EMPTY (R251): nothing changes. -/
def execBme280WriteEmpty (s : State) : Host.Outcome State Fault Refusal :=
  onFamily isBme280 s fun s => s

/-- BME280.SELECT (R252). -/
def execBme280Select (a : Byte) (s : State) : Host.Outcome State Fault Refusal :=
  onFamily isBme280 s fun s => ({ s with ca := a }).latchAddress

/-- BME280.WRITE_PAIRS (R253). -/
def execBme280WritePairs (a v : Byte) (rest : List Byte) (s : State) : Host.Outcome State Fault Refusal :=
  onFamily isBme280 s fun s => (s.writePairs (a :: v :: rest)).latchAddress

/-- BME280.BUS_READ (R254): the window from `CA` to the end; `CA` stays (D13). -/
def execBme280BusRead (clocks : Option Nat) (s : State) : Host.Outcome State Fault Refusal :=
  onFamily isBme280 s fun s => s.emit (s.memRead s.ca.toNat (256 - s.ca.toNat)) clocks

end Sys2Proof.Machine
end

