-- ==== Sys2Proof/Machine/Operands.lean ====
section
/-! DEFINITION. The fields read out of the BME280 register file: calibration (spec/42_bme280_codec R180) and data (R181).
The packing is the spec's, PRESUMED there: log 8. -/

namespace Sys2Proof.Machine

/-- A little-endian 16-bit calibration word: low byte at the lower address (R81). -/
def State.calWord (s : State) (a : Nat) : Word16 := joinBytes (s.readByte (a + 1)) (s.readByte a)

/-- T1, unsigned. -/
def State.calT1 (s : State) : Int := ((s.calWord 0x88).toNat : Int)

/-- T2, signed. -/
def State.calT2 (s : State) : Int := (s.calWord 0x8A).toInt

/-- T3, signed. -/
def State.calT3 (s : State) : Int := (s.calWord 0x8C).toInt

/-- P1, unsigned; unused by every event. -/
def State.calP1 (s : State) : Int := ((s.calWord 0x8E).toNat : Int)

/-- P(k+1) for k = 1 to 8, signed; unused by every event. -/
def State.calP (s : State) (k : Nat) : Int := (s.calWord (0x8E + 2 * k)).toInt

/-- H1, unsigned. -/
def State.calH1 (s : State) : Int := ((s.readByte 0xA1).toNat : Int)

/-- H2, signed. -/
def State.calH2 (s : State) : Int := (s.calWord 0xE1).toInt

/-- H3, unsigned. -/
def State.calH3 (s : State) : Int := ((s.readByte 0xE3).toNat : Int)

/-- H4: 0xE4 above the low nibble of 0xE5, signed, 12 bits. -/
def State.calH4 (s : State) : Int := (s.readByte 0xE4 ++ (s.readByte 0xE5).extractLsb' 0 4 : BitVec 12).toInt

/-- H5: 0xE6 above the high nibble of 0xE5, signed, 12 bits. -/
def State.calH5 (s : State) : Int := (s.readByte 0xE6 ++ (s.readByte 0xE5).extractLsb' 4 4 : BitVec 12).toInt

/-- H6, signed. -/
def State.calH6 (s : State) : Int := (s.readByte 0xE7).toInt

/-- R181: `adc_T`, the low nibble of 0xFC left out. -/
def State.adcT (s : State) : Nat :=
  (s.readByte 0xFA).toNat * 4096 + (s.readByte 0xFB).toNat * 16 + (s.readByte 0xFC).toNat / 16

/-- R181: `adc_H`. -/
def State.adcH (s : State) : Nat := (s.readByte 0xFD).toNat * 256 + (s.readByte 0xFE).toNat

end Sys2Proof.Machine
end

