-- ==== Sys2Proof/Machine/Solver.lean ====
section
/-! DEFINITION. The quadratic solver (spec/40_quadratic_solver R150 to R155), exactly, over the real numbers: a root of a
quadratic is (p + q·√d) / w with q rational and p, d and w polynomials of the coefficients, and comparing it with a rational
number takes signs of such polynomials only. -/

namespace Sys2Proof.Machine

/-- The real number (p + q·√d) / w (0 ≤ d, 0 < w). -/
structure Surd where
  p : RealTerm
  q : Rat
  d : RealTerm
  w : RealTerm
  deriving DecidableEq, Repr

/-- R150: the root the caller chooses. -/
inductive RootChoice where
  | min
  | max
  deriving DecidableEq, Repr

/-- A rational number. -/
def Surd.ofRat (r : Rat) : Surd := ⟨.ofRat r, 0, .ofRat 0, .ofRat 1⟩

/-- (p + q·√d) / w, for w ≠ 0 of either sign. -/
def Surd.over (p : RealTerm) (q : Rat) (d w : RealTerm) : Surd :=
  if w.isPos then ⟨p, q, d, w⟩ else ⟨p.neg, -q, d, w.neg⟩

/-- k·v. -/
def Surd.scale (k : Rat) (v : Surd) : Surd := ⟨v.p.scale k, k * v.q, v.d, v.w⟩

/-- v + k. -/
def Surd.shift (k : Rat) (v : Surd) : Surd := ⟨v.p.add (v.w.scale k), v.q, v.d, v.w⟩

/-- y ≤ v: with u = p − y·w, whether −u ≤ q·√d; the root's side and u are compared by their signs and squares. -/
def Surd.atLeast (v : Surd) (y : Rat) : Bool :=
  let u := v.p.sub (v.w.scale y)
  let square := v.d.scale (v.q * v.q)
  if 0 ≤ v.q then u.isNonneg || (square.sub (u.mul u)).isNonneg
  else u.isNonneg && ((u.mul u).sub square).isNonneg

/-- v ≤ y. -/
def Surd.atMost (v : Surd) (y : Rat) : Bool := (v.scale (-1)).atLeast (-y)

/-- R151. -/
def discriminant (a b c : RealTerm) : RealTerm := (b.mul b).sub ((a.mul c).scale 4)

/-- R154, R331 class 4: the solver takes the guard or the vertex. -/
def degenerate (a b c : RealTerm) : Bool := a.isZero || !(discriminant a b c).isPos

/-- R152: of r1 and r2, which share p, d > 0 and w > 0, the greater or the lesser: the one whose factor of √d is greater
or lesser. -/
def pickRoot (choice : RootChoice) (r1 r2 : Surd) : Surd :=
  match choice with
  | .max => if r2.q ≤ r1.q then r1 else r2
  | .min => if r1.q ≤ r2.q then r1 else r2

/-- R150: SOLVE. -/
def solve (a b c : RealTerm) (choice : RootChoice) : Surd :=
  if a.isZero then
    if b.isZero then Surd.ofRat 0 else Surd.over c.neg 0 (.ofRat 0) b
  else
    let d := discriminant a b c
    if d.isPos then pickRoot choice (Surd.over b.neg 1 d (a.scale 2)) (Surd.over b.neg (-1) d (a.scale 2))
    else Surd.over b.neg 0 (.ofRat 0) (a.scale 2)

end Sys2Proof.Machine
end

