-- ==== Sys2Proof/Machine/Codec.lean ====
section
/-! DEFINITION. The codecs of both sensor makers: spec/42_bme280_codec R183 to R186 and spec/43_sensirion_codec R220, R221.
Their constants are the spec's, PRESUMED there where it says so: log 8. -/

namespace Sys2Proof.Machine

/-- A field's integer and whether the value had to be clamped into the field (R331 class 3). -/
structure FieldValue where
  value : Nat
  clamped : Bool
  deriving DecidableEq, Repr

/-- The greatest n with `base` ≤ n < `base` + 2^bits of which `p` holds, found bit by bit, or `base` if there is none, for a
`p` that holds up to some number and not above it. -/
def greatest (p : Nat → Bool) : Nat → Nat → Nat
  | 0, base => base
  | bits + 1, base => greatest p bits (if p (base + 2 ^ bits) then base + 2 ^ bits else base)

/-- R18: `to_field_M(v)` for a field of `bits` bits, M = 2^bits − 1: the greatest integer of 0..M that is at most v. -/
def fieldOf (bits : Nat) (v : Surd) : FieldValue :=
  ⟨greatest (fun n => v.atLeast n) bits 0, !v.atLeast 0 || !v.atMost (2 ^ bits - 1)⟩

/-- D5: how far the implementation's integer may lie from the exact one: a free value within `CODEC_TOLERANCE`, and 0
where that is 0. DESIGN CHOICE, safe: log 13. -/
def deviation (tolerance : Nat) (call : CodecCall) : Int :=
  if tolerance = 0 then 0 else clampInt (Config.codecDeviation call) (-(tolerance : Int)) tolerance

/-- The integer an implementation stores in a field of maximum `m` where the exact one is `exact` (R18, R156). -/
def stored (c : Config) (call : CodecCall) (m exact : Nat) : Nat :=
  (clampInt ((exact : Int) + deviation c.codecTolerance call) 0 m).toNat

/-- The notes of a list of classes with the condition each is met under. -/
def notesOf (l : List (Bool × ErrorClass)) : List ErrorClass := (l.filter fun e => e.1).map fun e => e.2

/-- R183: the coefficients a, b, c of the temperature quadratic. -/
def tempCoeffs (t1 t2 t3 : Rat) (t : Number) : RealTerm × RealTerm × RealTerm :=
  (.ofRat (t3 / 64), .ofRat (t2 - t3 * t1 / 32768),
    (RealTerm.ofRat (t3 * t1 * t1 / 67108864 - t2 * t1 / 1024)).sub ((RealTerm.num t).scale 5120))

/-- R183: `xs * 16384` before the conversion to the field. -/
def tempExact (t1 t2 t3 : Rat) (t : Number) : Surd :=
  Surd.scale 16384 (solve (tempCoeffs t1 t2 t3 t).1 (tempCoeffs t1 t2 t3 t).2.1 (tempCoeffs t1 t2 t3 t).2.2 .max)

/-- R183: BME280.SET_T. -/
def State.bmeSetT (s : State) (t : Number) : State :=
  let co := tempCoeffs s.calT1 s.calT2 s.calT3 t
  let f := fieldOf 20 (tempExact s.calT1 s.calT2 s.calT3 t)
  let adc := stored s.cfg (.bmeT t s.calT1 s.calT2 s.calT3) 0xFFFFF f.value
  (s.put20 0xFA (BitVec.ofNat 20 adc)).note
    (notesOf [(degenerate co.1 co.2.1 co.2.2, .degenerate), (f.clamped, .clamped)])

/-- R184: the integer compensation on `adc_T` = A. -/
def tFineOf (adc t1 t2 t3 : Int) : Int :=
  let var1 := asr ((asr adc 3 - 2 * t1) * t2) 11
  let d := asr adc 4 - t1
  let var2 := asr (asr (d * d) 12 * t3) 14
  var1 + var2

/-- R184: DERIVE_T_FINE, from the current register file. -/
def State.tFine (s : State) : Int := tFineOf s.adcT s.calT1 s.calT2 s.calT3

/-- R185: c1 to c4 from t_fine and H1 to H6. -/
structure HumTerms where
  c1 : Rat
  c2 : Rat
  c3 : Rat
  c4 : Rat
  deriving DecidableEq, Repr

/-- R185. -/
def humTerms (tf h1 h2 h3 h4 h5 h6 : Rat) : HumTerms :=
  let c1 := tf - 76800
  { c1 := c1
    c2 := h1 / 524288
    c3 := h4 * 64 + h5 / 16384 * c1
    c4 := h2 / 65536 * (1 + h6 / 67108864 * c1 * (1 + h3 / 67108864 * c1)) }

/-- R185: the terms of the current register file. -/
def State.humTerms (s : State) : HumTerms :=
  Machine.humTerms s.tFine s.calH1 s.calH2 s.calH3 s.calH4 s.calH5 s.calH6

/-- R185: `v / c4 + c3` before the conversion to the field. -/
def humExact (t : HumTerms) (h : Number) : Surd :=
  Surd.shift t.c3 (Surd.scale (1 / t.c4) (solve (.ofRat t.c2) (.ofRat (-1)) (.num h) .min))

/-- D10, R331 class 3: the humidity lies outside [0, 100] and is clamped. -/
def humClamped (h : Number) : Bool := h.below 0 || h.above 100

/-- R185: BME280.SET_H; R186: nothing is written where c4 = 0. -/
def State.bmeSetH (s : State) (h : Number) : State :=
  let hc := h.clamp 0 100
  let t := s.humTerms
  if t.c4 = 0 then s.note (notesOf [(humClamped h, .clamped), (true, .degenerate)])
  else
    let f := fieldOf 16 (humExact t hc)
    let call := CodecCall.bmeH hc s.tFine s.calH1 s.calH2 s.calH3 s.calH4 s.calH5 s.calH6
    let raw := BitVec.ofNat 16 (stored s.cfg call 0xFFFF f.value)
    (s.memWrite 0xFD [hiByte raw, loByte raw]).note
      (notesOf [(humClamped h, .clamped), (degenerate (.ofRat t.c2) (.ofRat (-1)) (.num hc), .degenerate),
        (f.clamped, .clamped)])

/-- R220: the exact value before the conversion to the field. -/
def shtTempExact (t : Number) : Surd :=
  Surd.over (((RealTerm.num t).add (.ofRat Config.tOffset)).scale 65535) 0 (.ofRat 0) (.ofRat Config.tSpan)

/-- R221: the exact value before the conversion to the field. -/
def shtHumExact (p : ShtParams) (hc : Number) : Surd :=
  Surd.over (((RealTerm.num hc).add (.num p.humOffset)).scale 65535) 0 (.ofRat 0) (.num p.humSpan)

/-- R220: SHT.SET_T. -/
def State.shtSetT (s : State) (t : Number) : State :=
  let f := fieldOf 16 (shtTempExact t)
  ({ s with tRaw := BitVec.ofNat 16 (stored s.cfg (.shtT t) 0xFFFF f.value) }).note (notesOf [(f.clamped, .clamped)])

/-- R221: SHT.SET_H. -/
def State.shtSetH (s : State) (h : Number) : State :=
  let hc := h.clamp 0 100
  let p := s.cfg.params
  let f := fieldOf 16 (shtHumExact p hc)
  ({ s with hRaw := BitVec.ofNat 16 (stored s.cfg (.shtH hc p.humOffset p.humSpan) 0xFFFF f.value) }).note
    (notesOf [(humClamped h, .clamped), (f.clamped, .clamped)])

end Sys2Proof.Machine
end

