-- ==== Sys2Proof/Machine/HostPort.lean ====
section
/-! DEFINITION. The host calls: BME280 (spec/42_bme280_codec R183, R185) and Sensirion (spec/43_sensirion_codec R220,
R221). A NaN or an infinity has no step (R335). -/

namespace Sys2Proof.Machine

/-- BME280.SET_T (R183). -/
def execBme280SetT (t : HostValue) (s : State) : Host.Outcome State Fault Refusal :=
  onHostCall isBme280 t s fun q s => s.bmeSetT q

/-- BME280.SET_H (R185, R186). -/
def execBme280SetH (h : HostValue) (s : State) : Host.Outcome State Fault Refusal :=
  onHostCall isBme280 h s fun q s => s.bmeSetH q

/-- SHT.SET_T (R220). -/
def execShtSetT (t : HostValue) (s : State) : Host.Outcome State Fault Refusal :=
  onHostCall Family.isSensirion t s fun q s => s.shtSetT q

/-- SHT.SET_H (R221). -/
def execShtSetH (h : HostValue) (s : State) : Host.Outcome State Fault Refusal :=
  onHostCall Family.isSensirion h s fun q s => s.shtSetH q

end Sys2Proof.Machine
end

