-- ==== Sys2Proof/Machine/Flags.lean ====
section
/-! DEFINITION. The status functions of the SHT31 (spec/43_sensirion_codec R223), its status fields (spec/10_state R42) and
the write-time effect of a command kind (spec/45_sensirion_dispatch R281). There are no other flags (R46). -/

namespace Sys2Proof.Machine

/-- R223: ST_CLEAR. -/
def stClear (_ : Word16) : Word16 := 0x0000#16

/-- R223: ST_RESET. -/
def stReset (c : Config) (_ : Word16) : Word16 := c.statusReset

/-- R223: ST_HEAT_ON. -/
def stHeatOn (c : Config) (st : Word16) : Word16 := st ||| c.heaterMask

/-- R223: ST_HEAT_OFF. -/
def stHeatOff (c : Config) (st : Word16) : Word16 := st &&& ~~~c.heaterMask

/-- R42: bit 15, alert pending. -/
def alertPending (st : Word16) : Bool := st.getLsbD 15

/-- R42: bit 3, reset pending. -/
def resetPending (st : Word16) : Bool := st.getLsbD 3

/-- R42: the heater bits. -/
def heaterBits (c : Config) (st : Word16) : Word16 := st &&& c.heaterMask

/-- R281: EFFECT(k) on SHT31's STATUS. -/
def statusEffect (c : Config) (k : Kind) (st : Word16) : Word16 :=
  match k with
  | .clearStatus => stClear st
  | .softReset => stReset c st
  | .heaterOn => stHeatOn c st
  | .heaterOff => stHeatOff c st
  | .measure => st
  | .readSerial => st
  | .readStatus => st
  | .nop => st

/-- R281: EFFECT(k): SHT4x has no STATUS, and no kind has an effect there. -/
def State.effect (s : State) (k : Kind) : State :=
  match s.cfg.family with
  | .sht31 => { s with status := statusEffect s.cfg k s.status }
  | .sht4x => s
  | .bme280 => s

end Sys2Proof.Machine
end

