-- ==== Sys2Proof/Machine/Sht31.lean ====
section
/-! DEFINITION. The SHT31 commands (spec/45_sensirion_dispatch R311 to R322): each latches its code, and four of them write
STATUS at once (R281). -/

namespace Sys2Proof.Machine

/-- SHT31.MEAS_HIGH_CS (R311). -/
def execSht31MeasHighCs (s : State) : Host.Outcome State Fault Refusal :=
  onFamily isSht31 s fun s => s.latch 0x2C06#16

/-- SHT31.MEAS_MED_CS (R312). -/
def execSht31MeasMedCs (s : State) : Host.Outcome State Fault Refusal :=
  onFamily isSht31 s fun s => s.latch 0x2C0D#16

/-- SHT31.MEAS_LOW_CS (R313). -/
def execSht31MeasLowCs (s : State) : Host.Outcome State Fault Refusal :=
  onFamily isSht31 s fun s => s.latch 0x2C10#16

/-- SHT31.MEAS_HIGH (R314). -/
def execSht31MeasHigh (s : State) : Host.Outcome State Fault Refusal :=
  onFamily isSht31 s fun s => s.latch 0x2400#16

/-- SHT31.MEAS_MED (R315). -/
def execSht31MeasMed (s : State) : Host.Outcome State Fault Refusal :=
  onFamily isSht31 s fun s => s.latch 0x240B#16

/-- SHT31.MEAS_LOW (R316). -/
def execSht31MeasLow (s : State) : Host.Outcome State Fault Refusal :=
  onFamily isSht31 s fun s => s.latch 0x2416#16

/-- SHT31.READ_SERIAL (R317). -/
def execSht31ReadSerial (s : State) : Host.Outcome State Fault Refusal :=
  onFamily isSht31 s fun s => s.latch 0x3780#16

/-- SHT31.READ_STATUS (R318). -/
def execSht31ReadStatus (s : State) : Host.Outcome State Fault Refusal :=
  onFamily isSht31 s fun s => s.latch 0xF32D#16

/-- SHT31.CLEAR_STATUS (R319). -/
def execSht31ClearStatus (s : State) : Host.Outcome State Fault Refusal :=
  onFamily isSht31 s fun s => { s.latch 0x3041#16 with status := stClear s.status }

/-- SHT31.SOFT_RESET (R320). -/
def execSht31SoftReset (s : State) : Host.Outcome State Fault Refusal :=
  onFamily isSht31 s fun s => { s.latch 0x30A2#16 with status := stReset s.cfg s.status }

/-- SHT31.HEATER_ON (R321). -/
def execSht31HeaterOn (s : State) : Host.Outcome State Fault Refusal :=
  onFamily isSht31 s fun s => { s.latch 0x306D#16 with status := stHeatOn s.cfg s.status }

/-- SHT31.HEATER_OFF (R322). -/
def execSht31HeaterOff (s : State) : Host.Outcome State Fault Refusal :=
  onFamily isSht31 s fun s => { s.latch 0x3066#16 with status := stHeatOff s.cfg s.status }

end Sys2Proof.Machine
end

