-- ==== Sys2Proof/Machine/Sht4x.lean ====
section
/-! DEFINITION. The SHT4x commands (spec/45_sensirion_dispatch R300 to R310): each latches its code and has no side effect
at the write (R281); there is no STATUS and no heater on SHT4x. -/

namespace Sys2Proof.Machine

/-- SHT4X.MEAS_HP (R300). -/
def execSht4xMeasHp (s : State) : Host.Outcome State Fault Refusal :=
  onFamily isSht4x s fun s => s.latch 0x00FD#16

/-- SHT4X.MEAS_MP (R301). -/
def execSht4xMeasMp (s : State) : Host.Outcome State Fault Refusal :=
  onFamily isSht4x s fun s => s.latch 0x00F6#16

/-- SHT4X.MEAS_LP (R302). -/
def execSht4xMeasLp (s : State) : Host.Outcome State Fault Refusal :=
  onFamily isSht4x s fun s => s.latch 0x00E0#16

/-- SHT4X.MEAS_H200_1S (R303). -/
def execSht4xMeasH200Long (s : State) : Host.Outcome State Fault Refusal :=
  onFamily isSht4x s fun s => s.latch 0x0039#16

/-- SHT4X.MEAS_H200_01S (R304). -/
def execSht4xMeasH200Short (s : State) : Host.Outcome State Fault Refusal :=
  onFamily isSht4x s fun s => s.latch 0x0032#16

/-- SHT4X.MEAS_H110_1S (R305). -/
def execSht4xMeasH110Long (s : State) : Host.Outcome State Fault Refusal :=
  onFamily isSht4x s fun s => s.latch 0x002F#16

/-- SHT4X.MEAS_H110_01S (R306). -/
def execSht4xMeasH110Short (s : State) : Host.Outcome State Fault Refusal :=
  onFamily isSht4x s fun s => s.latch 0x0024#16

/-- SHT4X.MEAS_H20_1S (R307). -/
def execSht4xMeasH20Long (s : State) : Host.Outcome State Fault Refusal :=
  onFamily isSht4x s fun s => s.latch 0x001E#16

/-- SHT4X.MEAS_H20_01S (R308). -/
def execSht4xMeasH20Short (s : State) : Host.Outcome State Fault Refusal :=
  onFamily isSht4x s fun s => s.latch 0x0015#16

/-- SHT4X.READ_SERIAL (R309). -/
def execSht4xReadSerial (s : State) : Host.Outcome State Fault Refusal :=
  onFamily isSht4x s fun s => s.latch 0x0089#16

/-- SHT4X.SOFT_RESET (R310). -/
def execSht4xSoftReset (s : State) : Host.Outcome State Fault Refusal :=
  onFamily isSht4x s fun s => s.latch 0x0094#16

end Sys2Proof.Machine
end

