-- ==== Sys2Proof/Machine/ShtBus.lean ====
section
/-! DEFINITION. The Sensirion bus events that name no code of the default tables (spec/45_sensirion_dispatch R280 to R298,
R323 to R325). None fails or emits an error (R298). -/

namespace Sys2Proof.Machine

/-- R280: `code <- (need = 1) ? zext_16(b[0]) : (b[0] << 8) | b[1]`, of a transfer of the right count. -/
def commandCode (c : Config) (b : List Byte) : Word16 :=
  if c.need = 1 then zext16 (b.getD 0 0#8) else joinBytes (b.getD 0 0#8) (b.getD 1 0#8)

/-- R280: `CMD <- code`, then EFFECT of its kind at once, or `note UnknownCommand`. -/
def State.command (s : State) (code : Word16) : State :=
  match s.cfg.kindOf code with
  | none => (s.latch code).note [.unknownCommand]
  | some k => (s.latch code).effect k

/-- SHT.BUS_WRITE (R280), the general rule: the count is checked first (R333). -/
def execShtBusWrite (b : List Byte) (s : State) : Host.Outcome State Fault Refusal :=
  onFamily Family.isSensirion s fun s =>
    if b.length ≠ s.cfg.need then (s.latch 0x0000#16).note [.badCount]
    else s.command (commandCode s.cfg b)

/-- R120, R293: the MEAS6 frame, of the words as they are at the read. -/
def State.meas6 (s : State) : List Byte := frameWord s.tRaw ++ frameWord s.hRaw

/-- R120, R295: the STAT3 frame. -/
def State.stat3 (s : State) : List Byte := frameWord s.status

/-- R290, R296: the reply the latched command selects. -/
def State.shtReply (s : State) : List Byte :=
  if s.cmd = 0x0000#16 then []
  else
    match s.cfg.kindOf s.cmd with
    | none => []
    | some .measure => s.meas6
    | some .readSerial => s.serial.toList
    | some .readStatus => s.stat3
    | some .clearStatus => []
    | some .softReset => []
    | some .heaterOn => []
    | some .heaterOff => []
    | some .nop => []

/-- R297: the read ends with `CMD <- 0x0000` where `CONSUME_ON_READ` is true. -/
def State.consume (s : State) : State := if s.cfg.consumeOnRead then s.latch 0x0000#16 else s

/-- SHT.BUS_READ (R290). -/
def execShtBusRead (clocks : Option Nat) (s : State) : Host.Outcome State Fault Refusal :=
  onFamily Family.isSensirion s fun s => (s.emit s.shtReply clocks).consume

/-- SHT.INVALID_COUNT (R325). -/
def execShtInvalidCount (_b : List Byte) (s : State) : Host.Outcome State Fault Refusal :=
  onFamily Family.isSensirion s fun s => (s.latch 0x0000#16).note [.badCount]

/-- SHT.UNRECOGNIZED (R324). -/
def execShtUnrecognized (code : Word16) (s : State) : Host.Outcome State Fault Refusal :=
  onFamily Family.isSensirion s fun s => (s.latch code).note [.unknownCommand]

/-- SHT.NOP (R323). -/
def execShtNop (code : Word16) (s : State) : Host.Outcome State Fault Refusal :=
  onFamily Family.isSensirion s fun s => s.latch code

end Sys2Proof.Machine
end

