-- ==== Sys2Proof/Machine/Dispatch.lean ====
section
/-! DEFINITION. One arm per row of spec/opcode_table.json, each one call of its meaning. -/

namespace Sys2Proof.Machine

def exec (i : Instr) (s : State) : Host.Outcome State Fault Refusal :=
  match i with
  | .bme280BusWrite b => Sys2Proof.Machine.execBme280BusWrite b s
  | .bme280WriteEmpty => Sys2Proof.Machine.execBme280WriteEmpty s
  | .bme280Select a => Sys2Proof.Machine.execBme280Select a s
  | .bme280WritePairs a v rest => Sys2Proof.Machine.execBme280WritePairs a v rest s
  | .bme280BusRead clocks => Sys2Proof.Machine.execBme280BusRead clocks s
  | .sht4xMeasHp => Sys2Proof.Machine.execSht4xMeasHp s
  | .sht4xMeasMp => Sys2Proof.Machine.execSht4xMeasMp s
  | .sht4xMeasLp => Sys2Proof.Machine.execSht4xMeasLp s
  | .sht4xMeasH200Long => Sys2Proof.Machine.execSht4xMeasH200Long s
  | .sht4xMeasH200Short => Sys2Proof.Machine.execSht4xMeasH200Short s
  | .sht4xMeasH110Long => Sys2Proof.Machine.execSht4xMeasH110Long s
  | .sht4xMeasH110Short => Sys2Proof.Machine.execSht4xMeasH110Short s
  | .sht4xMeasH20Long => Sys2Proof.Machine.execSht4xMeasH20Long s
  | .sht4xMeasH20Short => Sys2Proof.Machine.execSht4xMeasH20Short s
  | .sht4xReadSerial => Sys2Proof.Machine.execSht4xReadSerial s
  | .sht4xSoftReset => Sys2Proof.Machine.execSht4xSoftReset s
  | .sht31MeasHighCs => Sys2Proof.Machine.execSht31MeasHighCs s
  | .sht31MeasMedCs => Sys2Proof.Machine.execSht31MeasMedCs s
  | .sht31MeasLowCs => Sys2Proof.Machine.execSht31MeasLowCs s
  | .sht31MeasHigh => Sys2Proof.Machine.execSht31MeasHigh s
  | .sht31MeasMed => Sys2Proof.Machine.execSht31MeasMed s
  | .sht31MeasLow => Sys2Proof.Machine.execSht31MeasLow s
  | .sht31ReadSerial => Sys2Proof.Machine.execSht31ReadSerial s
  | .sht31ReadStatus => Sys2Proof.Machine.execSht31ReadStatus s
  | .sht31ClearStatus => Sys2Proof.Machine.execSht31ClearStatus s
  | .sht31SoftReset => Sys2Proof.Machine.execSht31SoftReset s
  | .sht31HeaterOn => Sys2Proof.Machine.execSht31HeaterOn s
  | .sht31HeaterOff => Sys2Proof.Machine.execSht31HeaterOff s
  | .shtBusWrite b => Sys2Proof.Machine.execShtBusWrite b s
  | .shtBusRead clocks => Sys2Proof.Machine.execShtBusRead clocks s
  | .shtInvalidCount b => Sys2Proof.Machine.execShtInvalidCount b s
  | .shtUnrecognized code => Sys2Proof.Machine.execShtUnrecognized code s
  | .shtNop code => Sys2Proof.Machine.execShtNop code s
  | .bme280SetT t => Sys2Proof.Machine.execBme280SetT t s
  | .bme280SetH h => Sys2Proof.Machine.execBme280SetH h s
  | .shtSetT t => Sys2Proof.Machine.execShtSetT t s
  | .shtSetH h => Sys2Proof.Machine.execShtSetH h s

end Sys2Proof.Machine
end

