-- ==== Sys2Proof/Machine/Step.lean ====
section
/-! DEFINITION. One step: the oldest thing that has arrived runs to completion (spec/20_memory R88). -/

namespace Sys2Proof.Machine

/-- One step. Nothing has arrived: the block waits, unchanged (R336, R344: log 2). An event runs as the instruction it
decodes to; a power cycle runs the reset. -/
def step (s : State) : Host.Outcome State Fault Refusal :=
  match nextInput s with
  | none => .next s
  | some (.powerCycle, s') => powerCycle s'
  | some (.event e, s') => exec (decode s'.cfg e) s'

/-- `s` as an instance of the family of the opcode-table word `w`, with the default command tables, and the word's
transfer as the next thing to run (logs 2, 22). -/
def State.withFetchWord (s : State) (nbits w : Nat) : State :=
  { s with
    cfg :=
      { s.cfg with
        family := (tableTransfer nbits w).1
        sht31 := { s.cfg.sht31 with cmdTable := Config.sht31Table }
        sht4x := { s.cfg.sht4x with cmdTable := Config.sht4xTable } }
    input := .event (.busWrite (tableTransfer nbits w).2) :: s.input }

end Sys2Proof.Machine
end

