-- ==== Sys2Proof/Machine/Platform.lean ====
section
/-! DEFINITION. The platform's side of the bus port, outside the block: address match and R/W bit (spec/00_scope R9, R12;
spec/30_encoding R110) and the receive buffer `MAX_RX` (R126). It decides what is queued; no step depends on it. -/

namespace Sys2Proof.Machine

/-- One transfer on the wire: the address, the R/W bit, the bytes of a write, the bytes a read clocks. -/
structure Transfer where
  addr : BitVec 7
  read : Bool
  bytes : List Byte
  clocks : Option Nat
  deriving DecidableEq, Repr

/-- R126, D32: `MAX_RX` can only shorten what arrives. -/
def receiveBuffer (maxRx : Option Nat) (b : List Byte) : List Byte :=
  match maxRx with
  | none => b
  | some n => b.take n

/-- R12, R110: a transfer to the instance's own address becomes BUS_WRITE or BUS_READ; any other is not delivered. -/
def deliver (c : Config) (t : Transfer) : Option Event :=
  if t.addr = c.busAddr then
    some (if t.read then .busRead t.clocks else .busWrite (receiveBuffer c.maxRx t.bytes))
  else none

/-- The instance with the transfer's event, if it has one, queued behind what has arrived. -/
def State.onWire (s : State) (t : Transfer) : State :=
  match deliver s.cfg t with
  | none => s
  | some e => { s with input := s.input ++ [.event e] }

end Sys2Proof.Machine
end

