-- ==== Sys2Proof/Machine/Reference.lean ====
section
/-! DEFINITION. The sensors' own decode formulas (spec/42_bme280_codec R183, R185, R191; spec/43_sensirion_codec R225): for
statements about what a controller makes of the stored data. No event uses them. PRESUMED: log 8. -/

namespace Sys2Proof.Machine

/-- R183: the floating-point temperature compensation, in °C, over the rationals. -/
def tempDecode (adc t1 t2 t3 : Rat) : Rat :=
  ((adc / 16384 - t1 / 1024) * t2 + (adc / 131072 - t1 / 8192) * (adc / 131072 - t1 / 8192) * t3) / 5120

/-- R191: the integer temperature decode, in hundredths of a degree. -/
def tempDecodeCenti (tFine : Int) : Int := asr (tFine * 5 + 128) 8

/-- R185: the floating-point humidity compensation before its clamp, in %RH. -/
def humDecode (t : HumTerms) (adcH : Rat) : Rat :=
  let h := (adcH - t.c3) * t.c4
  h * (1 - t.c2 * h)

/-- R225: the Sensirion temperature decode. -/
def shtTempDecode (raw : Nat) : Rat := -45 + 175 * raw / 65535

/-- R225: the Sensirion humidity decode of the parameters `p`. -/
noncomputable def shtHumDecode (p : ShtParams) (raw : Nat) : ℝ := p.humSpan.value * raw / 65535 - p.humOffset.value

end Sys2Proof.Machine
end

