-- ==== Sys2Proof/Machine/Script.lean ====
section
/-! DEFINITION. The transaction sequences of spec/30_encoding R127, as the events they expand to. -/

namespace Sys2Proof.Machine

/-- `SELECT a`. -/
def select (a : Byte) : List Event := [.busWrite [a]]

/-- `POKE a v`. -/
def poke (a v : Byte) : List Event := [.busWrite [a, v]]

/-- `PEEK a k`. -/
def peek (a : Byte) (k : Nat) : List Event := [.busWrite [a], .busRead (some k)]

/-- The bytes of `POKES a v0 v1 ...`: one address per value. An address is one byte of the transfer (R111), so `a + 1` is
taken in 8 bits and 0x00 follows 0xFF; R127 does not say what follows 0xFF, and R84 speaks of reads only. DESIGN CHOICE,
safe: log 36. -/
def pokesBytes (a : Byte) : List Byte → List Byte
  | [] => []
  | v :: rest => a :: v :: pokesBytes (a + 1#8) rest

/-- `POKES a v0 v1 ...`. -/
def pokes (a : Byte) (vs : List Byte) : List Event := [.busWrite (pokesBytes a vs)]

end Sys2Proof.Machine
end

