-- ==== Sys2Proof/Safety.lean ====
section
/-! DEFINITION. The terms the statements use: which states are ready for an event, the invariant of the block, the inputs
the block accepts, and agreement of two states but for the outputs. -/

namespace Sys2Proof

/-- R14, R335: an input the block has a step for: a host call carries a finite number. -/
def Input.accepted : Input → Bool
  | .powerCycle => true
  | .event (.busWrite _) => true
  | .event (.busRead _) => true
  | .event (.setT v) => v.isFinite
  | .event (.setH v) => v.isFinite

namespace Machine

/-- R365 (1): the instance's configuration is well formed and its family is one of `ok`. -/
structure Ready (ok : Family → Bool) (s : State) : Prop where
  config : s.cfg.wellFormed = true
  family : ok s.cfg.family = true

/-- What every event keeps: the register file's canonical form; `CA` is 0 until an address is latched (R33); no bit of
STATUS is set but those some writer sets (R42); SERIAL is the seeds' frame (R43); on SHT4x the high byte of CMD is 0
(R39). -/
structure Inv (s : State) : Prop where
  memory : s.memWf
  idle : s.ps = .idle → s.ca = 0x00#8
  status : s.status &&& ~~~(s.cfg.statusReset ||| s.cfg.heaterMask) = 0#16
  serial : s.serial = s.cfg.serialFrame
  command : s.cfg.family = .sht4x → s.cmd.toNat < 256

/-- `s` and `t` agree on the block's state and on what has arrived; they may differ in what the last event put out
(R334) and in how many free bytes the platform has supplied. -/
def SameBlock (s t : State) : Prop :=
  { s with offered := [], received := [], notes := [], free := 0 } =
    { t with offered := [], received := [], notes := [], free := 0 }

/-- Runs the events `l` in order, stopping at the first that is refused. -/
def runEvents (s : State) : List Event → Host.Outcome State Fault Refusal
  | [] => .next s
  | e :: rest =>
    match exec (decode s.cfg e) s with
    | .next t => runEvents t rest
    | .fault r => .fault r
    | .refused r => .refused r

end Machine
end Sys2Proof
end

