-- ==== Sys2Proof/Certificates/Slice0/Obligations.lean ====
section
/-! DEFINITION. The statements about the block. A statement about "every state" holds in states no run reaches; where it
needs the invariant of the register file it says so (`memWf`). "The block's own fields" are all but the outputs `offered`,
`received`, `notes` and the platform's counter `free` (`SameBlock`). -/

namespace Sys2Proof.Machine.Spec

/-- R150 to R154 over the real numbers, as the spec writes it. -/
noncomputable def solve (a b c : ℝ) (choice : RootChoice) : ℝ :=
  if a = 0 then
    if b = 0 then 0 else -c / b
  else if 0 < b * b - 4 * a * c then
    match choice with
    | .max => max ((-b + √(b * b - 4 * a * c)) / (2 * a)) ((-b - √(b * b - 4 * a * c)) / (2 * a))
    | .min => min ((-b + √(b * b - 4 * a * c)) / (2 * a)) ((-b - √(b * b - 4 * a * c)) / (2 * a))
  else -b / (2 * a)

/-- R18: `to_field_M` over the real numbers. -/
noncomputable def toField (m : ℕ) (v : ℝ) : ℤ := ⌊min (max v 0) (m : ℝ)⌋

/-- The real number a surd stands for. -/
noncomputable def value (v : Surd) : ℝ := (v.p.value + (v.q : ℝ) * √v.d.value) / v.w.value

/-- R183: a, b and c of the temperature quadratic. -/
noncomputable def tempA (t3 : ℤ) : ℝ := t3 / 64

/-- R183. -/
noncomputable def tempB (t1 t2 t3 : ℤ) : ℝ := t2 - t3 * t1 / 32768

/-- R183. -/
noncomputable def tempC (t1 t2 t3 : ℤ) (t : ℝ) : ℝ := t3 * t1 * t1 / 67108864 - t2 * t1 / 1024 - 5120 * t

/-- R183: `xs * 16384` over the real numbers. -/
noncomputable def temperature (t1 t2 t3 : ℤ) (t : ℝ) : ℝ :=
  solve (tempA t3) (tempB t1 t2 t3) (tempC t1 t2 t3 t) .max * 16384

/-- R183, R154: the temperature quadratic falls to the guard or the vertex. -/
def tempDegenerate (t1 t2 t3 : ℤ) (t : ℝ) : Prop :=
  t3 = 0 ∨ tempB t1 t2 t3 * tempB t1 t2 t3 - 4 * tempA t3 * tempC t1 t2 t3 t ≤ 0

/-- R185: c4 over the real numbers. -/
noncomputable def c4 (tf h2 h3 h6 : ℤ) : ℝ :=
  (h2 : ℝ) / 65536 * (1 + h6 / 67108864 * (tf - 76800) * (1 + h3 / 67108864 * (tf - 76800)))

/-- R185: `v / c4 + c3` over the real numbers, of a clamped humidity. -/
noncomputable def humidity (tf h1 h2 h3 h4 h5 h6 : ℤ) (hc : ℝ) : ℝ :=
  solve ((h1 : ℝ) / 524288) (-1) hc .min / c4 tf h2 h3 h6 + ((h4 : ℝ) * 64 + h5 / 16384 * (tf - 76800))

/-- The values of `humidity` for a register file. -/
noncomputable def humidityOf (s : State) (hc : ℝ) : ℝ :=
  humidity s.tFine s.calH1 s.calH2 s.calH3 s.calH4 s.calH5 s.calH6 hc

/-- R221: `v` before the conversion to the field, of a clamped humidity. -/
noncomputable def shtHumidity (p : ShtParams) (hc : ℝ) : ℝ := (hc + p.humOffset.value) * 65535 / p.humSpan.value

/-- R17: `sext_n` of the n-bit number `v`. -/
def sext (n : ℕ) (v : ℕ) : ℤ := if v < 2 ^ (n - 1) then (v : ℤ) else (v : ℤ) - 2 ^ n

/-- R17: `x[a + 1] ‖ x[a]`. -/
def wordAt (s : State) (a : ℕ) : ℕ := (s.readByte (a + 1)).toNat * 256 + (s.readByte a).toNat

/-- R111: the i-th pair of a transfer. -/
def pairAt (b : List Byte) (i : Nat) : Byte × Byte := (b.getD (2 * i) 0#8, b.getD (2 * i + 1) 0#8)

/-- R111, R255: the value of the last pair of the transfer whose address is `a`. -/
def lastStored (b : List Byte) (a : Nat) : Option Byte :=
  ((((List.range (b.length / 2)).map (pairAt b)).reverse).find? fun p => p.1.toNat == a).map fun p => p.2

/-- R120: the frame of the words of `ws`, each as high byte, low byte and the CRC of the two. -/
def frame (ws : List Word16) : List Byte :=
  ws.flatMap fun w => [w.extractLsb' 8 8, w.extractLsb' 0 8, crc8 [w.extractLsb' 8 8, w.extractLsb' 0 8]]

/-- R281: what a command kind does to STATUS on SHT31. -/
def statusAfter (c : Config) (st : Word16) : Kind → Word16
  | .clearStatus => 0x0000#16
  | .softReset => c.statusReset
  | .heaterOn => st ||| c.heaterMask
  | .heaterOff => st &&& ~~~c.heaterMask
  | .measure | .readSerial | .readStatus | .nop => st

/-- `s` after an event that emits nothing, with these classes noted. -/
def quiet (s : State) (classes : List ErrorClass) : State :=
  { s with offered := [], received := [], notes := classes }

end Sys2Proof.Machine.Spec

open Sys2Proof Sys2Proof.Machine

/-! ### Encoding -/

/-- R110 to R119, R123 to R125. Decoding the transaction of a well-formed instruction gives the instruction, with every
operand at every value; the two general rows, whose transfers the case rows name, are left out (log 21). -/
def Obligations.DecodeOfEncode : Prop :=
  ∀ (c : Config) (i : Instr), i.wellFormed c = true → i.isGeneralRow = false → decode c (encode c i) = i

/-- R125: every event of every configuration decodes, and no bit of the event is dropped. -/
def Obligations.EncodeOfDecode : Prop :=
  ∀ (c : Config) (e : Event), encode c (decode c e) = e

/-- R123, R124: what an event decodes to is well formed, unless it is a host call with a non-finite argument. -/
def Obligations.DecodeIsWellFormed : Prop :=
  ∀ (c : Config) (e : Event), (Input.event e).accepted = true → (decode c e).wellFormed c = true

/-- R116, R117, R113, R114: words written out from the spec's code columns. -/
def Obligations.DecodeOfSpecWords : Prop :=
  decode (Config.shipped .sht4x) (.busWrite [0xFD#8]) = .sht4xMeasHp ∧
  decode (Config.shipped .sht4x) (.busWrite [0x94#8]) = .sht4xSoftReset ∧
  decode (Config.shipped .sht4x) (.busWrite [0x42#8]) = .shtUnrecognized 0x0042#16 ∧
  decode (Config.shipped .sht31) (.busWrite [0x2C#8, 0x06#8]) = .sht31MeasHighCs ∧
  decode (Config.shipped .sht31) (.busWrite [0x30#8, 0x66#8]) = .sht31HeaterOff ∧
  decode (Config.shipped .sht31) (.busWrite [0x2C#8]) = .shtInvalidCount [0x2C#8] ∧
  decode (Config.shipped .bme280) (.busWrite [0xF4#8, 0x27#8, 0xF2#8]) = .bme280WritePairs 0xF4#8 0x27#8 [0xF2#8]

/-- The default tables are exactly the rows of R116 and R117 in the spec's order, each code once, and the default
configurations are well formed. The codes are the spec's defaults (log 11). -/
def Obligations.DefaultTablesWellFormed : Prop :=
  (∀ f : Family, (Config.shipped f).wellFormed = true) ∧
  (Config.shipped .sht4x).params.cmdTable = sht4xRows.map (fun r => (r.code, r.kind)) ∧
  (Config.shipped .sht31).params.cmdTable = sht31Rows.map (fun r => (r.code, r.kind)) ∧
  (sht4xRows.map fun r => r.code.toNat) = [0xFD, 0xF6, 0xE0, 0x39, 0x32, 0x2F, 0x24, 0x1E, 0x15, 0x89, 0x94] ∧
  (sht31Rows.map fun r => r.code.toNat) =
    [0x2C06, 0x2C0D, 0x2C10, 0x2400, 0x240B, 0x2416, 0x3780, 0xF32D, 0x3041, 0x30A2, 0x306D, 0x3066] ∧
  (∀ r ∈ sht4xRows, (Config.shipped .sht4x).kindOf r.code = some r.kind) ∧
  (∀ r ∈ sht31Rows, (Config.shipped .sht31).kindOf r.code = some r.kind) ∧
  (sht4xRows.map CommandRow.code).Nodup ∧ (sht31Rows.map CommandRow.code).Nodup

/-- A word of the opcode table placed by `withFetchWord` runs as the instruction `decodeTableWord` names. The placing is
the model's (logs 2, 22). -/
def Obligations.FetchWordRunsTableWord : Prop :=
  ∀ (s : State) (nbits w : Nat), ∃ i, decodeTableWord nbits w = some i ∧
    step (s.withFetchWord nbits w) = exec i { s.withFetchWord nbits w with input := s.input }

/-! ### The step -/

/-- R88: a step runs the oldest arrival: an event as the instruction it decodes to, on the state without it in the queue;
a power cycle as the reset. With nothing to run the block waits (DESIGN CHOICE, log 2). -/
def Obligations.StepRunsDecodedEvent : Prop :=
  ∀ (s : State) (rest : List Input),
    (∀ e, s.input = .event e :: rest → step s = exec (decode s.cfg e) { s with input := rest }) ∧
    (s.input = .powerCycle :: rest → step s = powerCycle { s with input := rest }) ∧
    (s.input = [] → step s = .next s)

/-- Every step keeps the invariant: R33, R39, R42, R43 and the canonical register file. -/
def Obligations.StepKeepsInv : Prop :=
  ∀ s t : State, Inv s → step s = .next t → Inv t

/-- The invariant holds after power-on of every configuration. -/
def Obligations.PowerOnHasInv : Prop :=
  ∀ c : Config, Inv (State.powerOn c)

/-- R330: no operation is fatal: an instance with a well-formed configuration and accepted inputs runs any number of steps
and never faults or refuses; the configuration never changes (R30). That each step consumes one arrival, that a step with
none is idle and that a power cycle keeps the queue are the model's choices (logs 2, 28). -/
def Obligations.EveryRunCompletes : Prop :=
  ∀ (s : State) (k : Nat), s.cfg.wellFormed = true → (∀ i ∈ s.input, i.accepted = true) →
    ∃ t : State, Host.Core.run Sys2Proof.core k s = .next t ∧ t.input = s.input.drop k ∧ t.cfg = s.cfg

/-- R334, R47: what earlier events put out or noted has no effect on the next step. -/
def Obligations.NoOutputPersists : Prop :=
  ∀ (s : State) (o : List Byte) (r : List (Option Byte)) (n : List ErrorClass), s.input ≠ [] →
    step { s with offered := o, received := r, notes := n } = step s

/-- R48 (the columns of writes), R340: which kind of event may write which element. -/
def Obligations.AccessRights : Prop :=
  ∀ (i : Instr) (s t : State), exec i s = .next t →
    t.cfg = s.cfg ∧ t.input = s.input ∧ t.serial = s.serial ∧
    (t.tRaw ≠ s.tRaw → ∃ v, encode s.cfg i = .setT v) ∧
    (t.hRaw ≠ s.hRaw → ∃ v, encode s.cfg i = .setH v) ∧
    (t.status ≠ s.status → s.cfg.family = .sht31 ∧ ∃ b, encode s.cfg i = .busWrite b) ∧
    (t.cmd ≠ s.cmd → (∃ b, encode s.cfg i = .busWrite b) ∨ ∃ k, encode s.cfg i = .busRead k) ∧
    (t.ca ≠ s.ca → ∃ b, encode s.cfg i = .busWrite b) ∧
    (t.ps ≠ s.ps → ∃ b, encode s.cfg i = .busWrite b) ∧
    ∀ a, t.readByte a ≠ s.readByte a →
      (∃ b, encode s.cfg i = .busWrite b) ∨
      ((∃ v, encode s.cfg i = .setT v) ∧ 0xFA ≤ a ∧ a ≤ 0xFC) ∨
      ((∃ v, encode s.cfg i = .setH v) ∧ 0xFD ≤ a ∧ a ≤ 0xFE)

/-- R118, R222: `T_SPAN` is 175; a table with the code 0x0000, with two kinds for one code or (on SHT4x) with a kind of SHT31's, and a
`HUM_SPAN` that is not positive, are refused. That the refusal falls on every event of such an instance is the model's reading (DEDUCED, log 19). -/
def Obligations.BadConfigurationRefused : Prop :=
  Config.tSpan = 175 ∧ ∀ (i : Instr) (s t : State), s.cfg.family.isSensirion = true →
    ((∃ k, ((0x0000#16, k) : Word16 × Kind) ∈ s.cfg.params.cmdTable) ∨
      (∃ code k k', (code, k) ∈ s.cfg.params.cmdTable ∧ (code, k') ∈ s.cfg.params.cmdTable ∧ k ≠ k') ∨
      (s.cfg.family = .sht4x ∧ ∃ code k, (code, k) ∈ s.cfg.params.cmdTable ∧
        k ∈ [Kind.readStatus, .clearStatus, .heaterOn, .heaterOff]) ∨
      s.cfg.params.humSpan.value ≤ 0) →
    exec i s ≠ .next t

/-- R335: a host call with a NaN or an infinity has no step, in any state. -/
def Obligations.NonFiniteRefused : Prop :=
  ∀ (s : State) (v : HostValue), v.isFinite = false →
    exec (.bme280SetT v) s = .refused .nonFiniteArgument ∧ exec (.bme280SetH v) s = .refused .nonFiniteArgument ∧
    exec (.shtSetT v) s = .refused .nonFiniteArgument ∧ exec (.shtSetH v) s = .refused .nonFiniteArgument

/-! ### BME280 bus -/

/-- R250, R255, R82: the general write completes; each byte address holds the value of the last pair written to it, or
what it held; `CA` is the last address byte; nothing else changes. -/
def Obligations.BmeBusWriteStoresPairs : Prop :=
  ∀ (s : State) (b : List Byte), Ready isBme280 s → s.memWf →
    ∃ t, exec (.bme280BusWrite b) s = .next t ∧
      (∀ a, t.readByte a = (Spec.lastStored b a).getD (s.readByte a)) ∧
      t.ca = (if b.length = 0 then s.ca else b.getD (2 * ((b.length - 1) / 2)) 0#8) ∧
      t.ps = (if b.length = 0 then s.ps else .addressLatched) ∧
      t = Spec.quiet { s with x := t.x, ca := t.ca, ps := t.ps } []

/-- R251: an empty write completes and changes nothing. -/
def Obligations.BmeWriteEmptyChangesNothing : Prop :=
  ∀ s : State, Ready isBme280 s → exec .bme280WriteEmpty s = .next (Spec.quiet s [])

/-- R252: a one-byte write completes and sets `CA` and `PS` only. -/
def Obligations.BmeSelectSetsAddress : Prop :=
  ∀ (s : State) (a : Byte), Ready isBme280 s →
    exec (.bme280Select a) s = .next (Spec.quiet { s with ca := a, ps := .addressLatched } [])

/-- R253: a write of two bytes or more completes: n/2 or (n−1)/2 stores in bus order, `CA` at the last address byte. -/
def Obligations.BmeWritePairsStoresPairs : Prop :=
  ∀ (s : State) (a v : Byte) (rest : List Byte), Ready isBme280 s → s.memWf →
    ∃ t, exec (.bme280WritePairs a v rest) s = .next t ∧
      (∀ r, t.readByte r = (Spec.lastStored (a :: v :: rest) r).getD (s.readByte r)) ∧
      t.ca = (a :: v :: rest).getD (2 * ((rest.length + 1) / 2)) 0#8 ∧ t.ps = .addressLatched ∧
      t = Spec.quiet { s with x := t.x, ca := t.ca, ps := .addressLatched } []

/-- R250 to R253: the general rule and the rule of the case a transfer falls under agree. -/
def Obligations.BmeGeneralWriteAgrees : Prop :=
  ∀ (s : State) (b : List Byte), Ready isBme280 s →
    exec (.bme280BusWrite b) s = exec (decode s.cfg (.busWrite b)) s

/-- R254, R121, R84: a read completes; it offers the bytes from `CA` to 0xFF and changes nothing; a second read offers the
same. -/
def Obligations.BmeBusReadOffersWindow : Prop :=
  ∀ (s : State) (k : Option Nat), Ready isBme280 s →
    ∃ t, exec (.bme280BusRead k) s = .next t ∧ t.offered.length = 256 - s.ca.toNat ∧
      (∀ j, j < 256 - s.ca.toNat → t.offered[j]? = some (s.readByte (s.ca.toNat + j))) ∧ t.notes = [] ∧ SameBlock t s ∧
      ∀ k' u, exec (.bme280BusRead k') t = .next u → u.offered = t.offered

/-- R86: a controller that clocks k bytes receives the first of the offered bytes and then what the platform supplies; one that
clocks every offered byte (`R` of R127) receives just those; how many it clocks changes neither the block nor what is
offered. -/
def Obligations.ClockedBytesArePrefix : Prop :=
  ∀ (read : Option Nat → Instr), read ∈ [Instr.bme280BusRead, Instr.shtBusRead] →
    ∀ (s t : State) (k : Nat), exec (read (some k)) s = .next t →
      t.received.length = k ∧
      (∀ j, j < min k t.offered.length → t.received[j]? = (t.offered[j]?).map some) ∧
      (∀ u, exec (read none) s = .next u → u.received = u.offered.map some) ∧
      ∀ k' u, exec (read k') s = .next u → SameBlock u t ∧ u.offered = t.offered

/-- R256, R37, R370: every address stores what a bus write sends to it, with no protection and no other byte changed, and
a read that follows offers it first. -/
def Obligations.BmePokeThenPeek : Prop :=
  ∀ (s : State) (a v : Byte), Ready isBme280 s → s.memWf →
    ∃ t, runEvents s (poke a v ++ peek a 1) = .next t ∧ t.offered.head? = some v ∧ t.received = [some v] ∧
      ∀ r, r ≠ a.toNat → t.readByte r = s.readByte r

/-! ### The solver and the BME280 codec -/

/-- R150 to R154: the model's exact solver is the spec's formula, for all real coefficients, and what it answers is a
well-formed surd. How a real number is held is the model's choice (log 3). -/
def Obligations.SolverMatchesReals : Prop :=
  ∀ (a b c : RealTerm) (choice : RootChoice),
    Spec.value (solve a b c choice) = Spec.solve a.value b.value c.value choice ∧
      0 ≤ (solve a b c choice).d.value ∧ 0 < (solve a b c choice).w.value

/-- R18: the integer a field of `bits` bits gets from a surd is `to_field_M` of its real value, and the value counts as
clamped exactly where it lies outside the field; the comparison it is found with is that of the real numbers. -/
def Obligations.FieldOfSurdExact : Prop :=
  ∀ v : Surd, 0 ≤ v.d.value → 0 < v.w.value →
    (∀ y : Rat, (v.atLeast y = true ↔ (y : ℝ) ≤ Spec.value v) ∧ (v.atMost y = true ↔ Spec.value v ≤ (y : ℝ))) ∧
    ∀ bits : ℕ, ((fieldOf bits v).value : ℤ) = Spec.toField (2 ^ bits - 1) (Spec.value v) ∧
      ((fieldOf bits v).clamped = true ↔ Spec.value v < 0 ∨ 2 ^ bits - 1 < Spec.value v)

/-- R152: the result does not change when the coefficients are scaled by a nonzero factor. -/
def Obligations.SolverScaleInvariant : Prop :=
  ∀ (k a b c : RealTerm) (choice : RootChoice), k.value ≠ 0 →
    Spec.value (solve (k.mul a) (k.mul b) (k.mul c) choice) = Spec.value (solve a b c choice)

/-- R183, R182, R18: SET_T completes on every real T (log 3); `adc_T` is the spec's integer, within `CODEC_TOLERANCE`; the low
nibble of 0xFC is 0; every other byte and element is unchanged. -/
def Obligations.BmeSetTStoresCompensation : Prop :=
  ∀ (s : State) (q : Number), Ready isBme280 s → s.memWf →
    ∃ t, exec (.bme280SetT (.finite q)) s = .next t ∧
      |(t.adcT : ℤ) - Spec.toField 0xFFFFF (Spec.temperature s.calT1 s.calT2 s.calT3 q.value)| ≤ s.cfg.codecTolerance ∧
      t.readByte 0xFC &&& 0x0F#8 = 0#8 ∧
      (∀ a, a < 0xFA ∨ 0xFC < a → t.readByte a = s.readByte a) ∧
      t = Spec.quiet { s with x := t.x } t.notes

/-- R185, R186, R18: SET_H completes on every real H (log 3); where c4 = 0 no byte changes, and otherwise `adc_H` is the spec's
integer of the clamped humidity, within `CODEC_TOLERANCE`; every other byte and element is unchanged. -/
def Obligations.BmeSetHStoresCompensation : Prop :=
  ∀ (s : State) (q : Number), Ready isBme280 s → s.memWf →
    ∃ t, exec (.bme280SetH (.finite q)) s = .next t ∧
      (Spec.c4 s.tFine s.calH2 s.calH3 s.calH6 = 0 → ∀ a, t.readByte a = s.readByte a) ∧
      (Spec.c4 s.tFine s.calH2 s.calH3 s.calH6 ≠ 0 →
        |(t.adcH : ℤ) - Spec.toField 0xFFFF (Spec.humidityOf s (min (max q.value 0) 100))| ≤ s.cfg.codecTolerance) ∧
      (∀ a, a < 0xFD ∨ 0xFE < a → t.readByte a = s.readByte a) ∧
      t = Spec.quiet { s with x := t.x } t.notes

/-- R184, R17: t_fine is the datasheet's integer formula over the unbounded integers, each shift a floor. -/
def Obligations.TFineFloorShifts : Prop :=
  ∀ s : State, s.tFine =
    ⌊(((⌊(s.adcT : ℚ) / 2 ^ 3⌋ - s.calT1 * 2) * s.calT2 : ℤ) : ℚ) / 2 ^ 11⌋ +
    ⌊((⌊(((⌊(s.adcT : ℚ) / 2 ^ 4⌋ - s.calT1) * (⌊(s.adcT : ℚ) / 2 ^ 4⌋ - s.calT1) : ℤ) : ℚ) / 2 ^ 12⌋ * s.calT3 : ℤ) : ℚ) /
      2 ^ 14⌋

/-- R185: for humidity the discriminant is positive for every register file and every H, so the vertex is never used. -/
def Obligations.HumidityDiscriminantPositive : Prop :=
  ∀ (s : State) (q : Number),
    0 < (discriminant (.ofRat s.humTerms.c2) (.ofRat (-1)) (.num (q.clamp 0 100))).value

/-- R185, R221 (the source's §8): a humidity above 100 gives what 100 gives, and one below 0 what 0 gives, in every
family. -/
def Obligations.HumidityClampedAlike : Prop :=
  ∀ (set : HostValue → Instr), set ∈ [Instr.bme280SetH, Instr.shtSetH] →
    ∀ (s t : State) (q : Number), exec (set (.finite q)) s = .next t →
      (100 < q.value → ∃ u, exec (set (.finite (.rat 100))) s = .next u ∧ SameBlock t u) ∧
      (q.value < 0 → ∃ u, exec (set (.finite (.rat 0))) s = .next u ∧ SameBlock t u)

/-- R331, R333: which classes a BME280 host call meets, and in which order. That c4 = 0 is noted once, before
the solver, is DEDUCED (log 34). -/
def Obligations.BmeHostCallNotes : Prop :=
  ∀ (s t : State) (q : Number),
    (exec (.bme280SetT (.finite q)) s = .next t →
      t.notes =
        (open Classical in if Spec.tempDegenerate s.calT1 s.calT2 s.calT3 q.value then [ErrorClass.degenerate] else []) ++
        (open Classical in
          if Spec.temperature s.calT1 s.calT2 s.calT3 q.value < 0 ∨
              0xFFFFF < Spec.temperature s.calT1 s.calT2 s.calT3 q.value then
            [ErrorClass.clamped] else [])) ∧
    (exec (.bme280SetH (.finite q)) s = .next t →
      t.notes =
        (open Classical in if q.value < 0 ∨ 100 < q.value then [ErrorClass.clamped] else []) ++
        (if s.calH1 = 0 ∨ s.humTerms.c4 = 0 then [ErrorClass.degenerate] else []) ++
        (open Classical in
          if s.humTerms.c4 ≠ 0 ∧
              (Spec.humidityOf s (min (max q.value 0) 100) < 0 ∨ 0xFFFF < Spec.humidityOf s (min (max q.value 0) 100)) then
            [ErrorClass.clamped] else []))

/-- R191 (derived; the decode is R183's forward formula, PRESUMED there: log 8): for T3 > 0 and tolerance 0, where nothing
was clamped and the stored value lies right of the vertex, the stored value is the greatest whose decoded temperature does
not exceed T. -/
def Obligations.BmeTemperatureRoundTrip : Prop :=
  ∀ (s t : State) (q : Number), s.memWf → s.cfg.codecTolerance = 0 → 0 < s.calT3 →
    exec (.bme280SetT (.finite q)) s = .next t → t.notes = [] →
    -Spec.tempB s.calT1 s.calT2 s.calT3 / (2 * Spec.tempA s.calT3) ≤ (t.adcT : ℝ) / 16384 →
    (tempDecode t.adcT s.calT1 s.calT2 s.calT3 : ℝ) ≤ q.value ∧
      ∀ n : ℕ, t.adcT < n → q.value < (tempDecode n s.calT1 s.calT2 s.calT3 : ℝ)

/-- R188: SET_T leaves the humidity bytes as they were, and SET_H the temperature bytes, the low nibble of 0xFC among
them; so the fields read from them stay. -/
def Obligations.BmeHostCallsKeepOtherField : Prop :=
  ∀ (s t : State) (q : Number),
    (exec (.bme280SetT (.finite q)) s = .next t →
      t.readByte 0xFD = s.readByte 0xFD ∧ t.readByte 0xFE = s.readByte 0xFE ∧ t.adcH = s.adcH) ∧
    (exec (.bme280SetH (.finite q)) s = .next t →
      t.readByte 0xFA = s.readByte 0xFA ∧ t.readByte 0xFB = s.readByte 0xFB ∧ t.readByte 0xFC = s.readByte 0xFC ∧
      t.adcT = s.adcT ∧ t.tFine = s.tFine)

/-- R180, R181: the calibration and data fields as numbers of the register bytes, in every state. The packing is the
spec's, PRESUMED there: log 8. -/
def Obligations.FieldsFromRegisterBytes : Prop :=
  ∀ s : State,
    s.calT1 = Spec.wordAt s 0x88 ∧ s.calT2 = Spec.sext 16 (Spec.wordAt s 0x8A) ∧
    s.calT3 = Spec.sext 16 (Spec.wordAt s 0x8C) ∧ s.calP1 = Spec.wordAt s 0x8E ∧
    (∀ k, 1 ≤ k → k ≤ 8 → s.calP k = Spec.sext 16 (Spec.wordAt s (0x8E + 2 * k))) ∧
    s.calH1 = (s.readByte 0xA1).toNat ∧ s.calH2 = Spec.sext 16 (Spec.wordAt s 0xE1) ∧ s.calH3 = (s.readByte 0xE3).toNat ∧
    s.calH4 = Spec.sext 12 ((s.readByte 0xE4).toNat * 16 + (s.readByte 0xE5).toNat % 16) ∧
    s.calH5 = Spec.sext 12 ((s.readByte 0xE6).toNat * 16 + (s.readByte 0xE5).toNat / 16) ∧
    s.calH6 = Spec.sext 8 (s.readByte 0xE7).toNat ∧
    s.adcT = ((s.readByte 0xFA).toNat * 65536 + (s.readByte 0xFB).toNat * 256 + (s.readByte 0xFC).toNat) / 16 ∧
    s.adcH = (s.readByte 0xFD).toNat * 256 + (s.readByte 0xFE).toNat

/-! ### CRC-8 -/

/-- R170, R171: the vectors the rules and the spec's table state. -/
def Obligations.CrcVectors : Prop :=
  crc8 [0xBE#8, 0xEF#8] = 0x92#8 ∧ crc8 [] = 0xFF#8 ∧ crcWord 0x0000#16 = 0x81#8 ∧ crcWord 0xFFFF#16 = 0xAC#8 ∧
  crcWord 0x8000#16 = 0xA2#8 ∧ crcWord 0x8008#16 = 0x1B#8 ∧ crcWord 0x72AF#16 = 0xB1#8

/-- R170 (derived): a message followed by its CRC has CRC 0, for every message. -/
def Obligations.CrcOfMessageAndCrcIsZero : Prop :=
  ∀ m : List Byte, crc8 (m ++ [crc8 m]) = 0#8

/-- R170, R172 (derived): two words that differ in one byte have different CRCs. -/
def Obligations.CrcDetectsOneByte : Prop :=
  ∀ w w' : Word16, (hiByte w = hiByte w' ∨ loByte w = loByte w') → crcWord w = crcWord w' → w = w'

/-! ### Sensirion -/

/-- R280 to R325: the general write rule and the rule of the command a transfer is agree, for every table. -/
def Obligations.ShtGeneralWriteAgrees : Prop :=
  ∀ (s : State) (b : List Byte), Ready Family.isSensirion s →
    exec (.shtBusWrite b) s = exec (decode s.cfg (.busWrite b)) s

/-- R280, R281, R333: the general write completes: a wrong count resets the latch, whatever the bytes; a code of the right
count is latched, and its kind's effect on STATUS happens at once; an unknown code has no effect. -/
def Obligations.ShtBusWriteLatches : Prop :=
  ∀ (s : State) (b : List Byte), Ready Family.isSensirion s →
    (b.length ≠ (if s.cfg.family = .sht31 then 2 else 1) →
      exec (.shtBusWrite b) s = .next (Spec.quiet { s with cmd := 0x0000#16 } [.badCount])) ∧
    ∀ code : Word16,
      ((s.cfg.family = .sht4x ∧ ∃ b0 : Byte, b = [b0] ∧ code = b0.setWidth 16) ∨
        (s.cfg.family = .sht31 ∧ ∃ b0 b1 : Byte, b = [b0, b1] ∧ code = (b0.setWidth 16 <<< 8) ||| b1.setWidth 16)) →
      (s.cfg.kindOf code = none →
        exec (.shtBusWrite b) s = .next (Spec.quiet { s with cmd := code } [.unknownCommand])) ∧
      ∀ k, s.cfg.kindOf code = some k →
        exec (.shtBusWrite b) s = .next (Spec.quiet
          { s with
            cmd := code
            status := if s.cfg.family = .sht31 then Spec.statusAfter s.cfg s.status k else s.status } [])

/-- R290, R293 to R297: a read completes; the latched command's kind selects the frame, built of the words as they are;
`CMD` is cleared where `CONSUME_ON_READ` is true; nothing else changes. -/
def Obligations.ShtBusReadReplies : Prop :=
  ∀ (s : State) (k : Option Nat), Ready Family.isSensirion s →
    ∃ t, exec (.shtBusRead k) s = .next t ∧
      (s.cmd ≠ 0x0000#16 → s.cfg.kindOf s.cmd = some .measure → t.offered = Spec.frame [s.tRaw, s.hRaw]) ∧
      (s.cmd ≠ 0x0000#16 → s.cfg.kindOf s.cmd = some .readSerial → t.offered = s.serial.toList) ∧
      (s.cmd ≠ 0x0000#16 → s.cfg.kindOf s.cmd = some .readStatus → t.offered = Spec.frame [s.status]) ∧
      ((s.cmd = 0x0000#16 ∨ s.cfg.kindOf s.cmd ∉ [some Kind.measure, some .readSerial, some .readStatus]) →
        t.offered = []) ∧
      t.cmd = (if s.cfg.consumeOnRead then 0x0000#16 else s.cmd) ∧ t.notes = [] ∧
      SameBlock t { s with cmd := t.cmd }

/-- R300 to R308: each SHT4x measurement command completes, latches its code and has no side effect, and a read that
follows offers the measurement frame. -/
def Obligations.Sht4xMeasureCommands : Prop :=
  ∀ (i : Instr) (code : Word16),
    (i, code) ∈
      [(Instr.sht4xMeasHp, 0x00FD#16), (.sht4xMeasMp, 0x00F6#16), (.sht4xMeasLp, 0x00E0#16),
       (.sht4xMeasH200Long, 0x0039#16), (.sht4xMeasH200Short, 0x0032#16), (.sht4xMeasH110Long, 0x002F#16),
       (.sht4xMeasH110Short, 0x0024#16), (.sht4xMeasH20Long, 0x001E#16), (.sht4xMeasH20Short, 0x0015#16)] →
    ∀ s : State, Ready isSht4x s →
      exec i s = .next (Spec.quiet { s with cmd := code } []) ∧
      (s.cfg.kindOf code = some .measure → ∀ k, ∃ u,
        exec (.shtBusRead k) (Spec.quiet { s with cmd := code } []) = .next u ∧
        u.offered = Spec.frame [s.tRaw, s.hRaw])

/-- R309, R310: SHT4x READ_SERIAL and SOFT_RESET complete, latch their codes and change nothing else; the read that follows
offers the serial frame and nothing. -/
def Obligations.Sht4xSerialAndSoftReset : Prop :=
  ∀ s : State, Ready isSht4x s →
    exec .sht4xReadSerial s = .next (Spec.quiet { s with cmd := 0x0089#16 } []) ∧
    exec .sht4xSoftReset s = .next (Spec.quiet { s with cmd := 0x0094#16 } []) ∧
    (s.cfg.kindOf 0x0089#16 = some .readSerial → ∀ k, ∃ u,
      exec (.shtBusRead k) (Spec.quiet { s with cmd := 0x0089#16 } []) = .next u ∧ u.offered = s.serial.toList) ∧
    (s.cfg.kindOf 0x0094#16 = some .softReset → ∀ k, ∃ u,
      exec (.shtBusRead k) (Spec.quiet { s with cmd := 0x0094#16 } []) = .next u ∧ u.offered = [])

/-- R311 to R316: each SHT31 measurement command completes, latches its code and has no side effect, and a read that
follows offers the measurement frame. -/
def Obligations.Sht31MeasureCommands : Prop :=
  ∀ (i : Instr) (code : Word16),
    (i, code) ∈
      [(Instr.sht31MeasHighCs, 0x2C06#16), (.sht31MeasMedCs, 0x2C0D#16), (.sht31MeasLowCs, 0x2C10#16),
       (.sht31MeasHigh, 0x2400#16), (.sht31MeasMed, 0x240B#16), (.sht31MeasLow, 0x2416#16)] →
    ∀ s : State, Ready isSht31 s →
      exec i s = .next (Spec.quiet { s with cmd := code } []) ∧
      (s.cfg.kindOf code = some .measure → ∀ k, ∃ u,
        exec (.shtBusRead k) (Spec.quiet { s with cmd := code } []) = .next u ∧
        u.offered = Spec.frame [s.tRaw, s.hRaw])

/-- R317, R318: SHT31 READ_SERIAL and READ_STATUS complete, latch their codes and change nothing else; the read that
follows offers the serial frame and the status frame. -/
def Obligations.Sht31SerialAndStatus : Prop :=
  ∀ s : State, Ready isSht31 s →
    exec .sht31ReadSerial s = .next (Spec.quiet { s with cmd := 0x3780#16 } []) ∧
    exec .sht31ReadStatus s = .next (Spec.quiet { s with cmd := 0xF32D#16 } []) ∧
    (s.cfg.kindOf 0x3780#16 = some .readSerial → ∀ k, ∃ u,
      exec (.shtBusRead k) (Spec.quiet { s with cmd := 0x3780#16 } []) = .next u ∧ u.offered = s.serial.toList) ∧
    (s.cfg.kindOf 0xF32D#16 = some .readStatus → ∀ k, ∃ u,
      exec (.shtBusRead k) (Spec.quiet { s with cmd := 0xF32D#16 } []) = .next u ∧ u.offered = Spec.frame [s.status])

/-- R319 to R322, R223: the four SHT31 commands that write STATUS complete, write it at once and change nothing else but
`CMD`; the read that follows offers nothing. -/
def Obligations.Sht31StatusCommands : Prop :=
  ∀ (i : Instr) (code : Word16) (k : Kind),
    (i, code, k) ∈
      [(Instr.sht31ClearStatus, 0x3041#16, Kind.clearStatus), (.sht31SoftReset, 0x30A2#16, .softReset),
       (.sht31HeaterOn, 0x306D#16, .heaterOn), (.sht31HeaterOff, 0x3066#16, .heaterOff)] →
    ∀ s : State, Ready isSht31 s →
      exec i s = .next (Spec.quiet { s with cmd := code, status := Spec.statusAfter s.cfg s.status k } []) ∧
      (s.cfg.kindOf code = some k → ∀ n t u, exec i s = .next t → exec (.shtBusRead n) t = .next u → u.offered = [])

/-- R323, R324, R325, R119: the writes without a table command complete: a NOP code and an unrecognized code are latched, a
wrong count resets the latch; nothing else changes, and the read that follows offers nothing. -/
def Obligations.ShtWritesWithoutCommand : Prop :=
  ∀ (s : State) (code : Word16) (b : List Byte), Ready Family.isSensirion s →
    exec (.shtNop code) s = .next (Spec.quiet { s with cmd := code } []) ∧
    exec (.shtUnrecognized code) s = .next (Spec.quiet { s with cmd := code } [.unknownCommand]) ∧
    exec (.shtInvalidCount b) s = .next (Spec.quiet { s with cmd := 0x0000#16 } [.badCount]) ∧
    ∀ i, i ∈ [Instr.shtNop code, .shtUnrecognized code, .shtInvalidCount b] → i.wellFormed s.cfg = true →
      ∀ k t u, exec i s = .next t → exec (.shtBusRead k) t = .next u → u.offered = []

/-- R297, R368: with `CONSUME_ON_READ` a read, whatever it offered, clears `CMD`, and a second read offers nothing; without it
`CMD` keeps its value and the second read offers the frame again. -/
def Obligations.ShtSecondRead : Prop :=
  ∀ (s t u : State) (k k' : Option Nat), exec (.shtBusRead k) s = .next t → exec (.shtBusRead k') t = .next u →
    (s.cfg.consumeOnRead = true → t.cmd = 0x0000#16 ∧ u.cmd = 0x0000#16 ∧ u.offered = []) ∧
    (s.cfg.consumeOnRead = false → t.cmd = s.cmd ∧ u.cmd = s.cmd ∧ u.offered = t.offered)

/-- R220, R18: SET_T completes on every real T (log 3); `T_RAW` is the spec's integer, within `CODEC_TOLERANCE`; nothing
else of the block changes. The note is R331's class 3: that State records it is the model's choice (log 16), and that it is
judged on the exact value DEDUCED (log 34). -/
def Obligations.ShtSetTStoresWord : Prop :=
  ∀ (s : State) (q : Number), Ready Family.isSensirion s →
    ∃ t, exec (.shtSetT (.finite q)) s = .next t ∧
      |(t.tRaw.toNat : ℤ) - Spec.toField 0xFFFF ((q.value + 45) * 65535 / 175)| ≤ s.cfg.codecTolerance ∧
      t = Spec.quiet { s with tRaw := t.tRaw }
        (open Classical in if q.value < -45 ∨ 130 < q.value then [.clamped] else [])

/-- R221, R18: SET_H completes on every real H (log 3); `H_RAW` is the spec's integer of the clamped humidity, within
`CODEC_TOLERANCE`; nothing else of the block changes. The notes are R331's class 3 in the order of R333, first for the
argument and then for the result: that State records them is the model's choice (log 16), and that the second is judged on
the exact value DEDUCED (log 34). -/
def Obligations.ShtSetHStoresWord : Prop :=
  ∀ (s : State) (q : Number), Ready Family.isSensirion s →
    ∃ t, exec (.shtSetH (.finite q)) s = .next t ∧
      |(t.hRaw.toNat : ℤ) - Spec.toField 0xFFFF (Spec.shtHumidity s.cfg.params (min (max q.value 0) 100))| ≤
        s.cfg.codecTolerance ∧
      t = Spec.quiet { s with hRaw := t.hRaw }
        ((open Classical in if q.value < 0 ∨ 100 < q.value then [.clamped] else []) ++
          (open Classical in
            if Spec.shtHumidity s.cfg.params (min (max q.value 0) 100) < 0 ∨
                0xFFFF < Spec.shtHumidity s.cfg.params (min (max q.value 0) 100) then
              [.clamped] else []))

/-- R225 (derived): for T in [−45, 130] and tolerance 0 the decoded word lies less than one step below T. -/
def Obligations.ShtTemperatureRoundTrip : Prop :=
  ∀ (s t : State) (q : Number), s.cfg.codecTolerance = 0 → -45 ≤ q.value → q.value ≤ 130 →
    exec (.shtSetT (.finite q)) s = .next t →
    (shtTempDecode t.tRaw.toNat : ℝ) ≤ q.value ∧ q.value < (shtTempDecode t.tRaw.toNat : ℝ) + 175 / 65535

/-- R225 (derived): for tolerance 0, where nothing was clamped, the decoded word lies less than one step below H, for every
offset and every positive span. -/
def Obligations.ShtHumidityRoundTrip : Prop :=
  ∀ (s t : State) (q : Number), s.cfg.codecTolerance = 0 → exec (.shtSetH (.finite q)) s = .next t → t.notes = [] →
    shtHumDecode s.cfg.params t.hRaw.toNat ≤ q.value ∧
      q.value < shtHumDecode s.cfg.params t.hRaw.toNat + s.cfg.params.humSpan.value / 65535

/-- R224: on the Sensirion families the order of SET_T and SET_H does not matter. -/
def Obligations.ShtHostCallsCommute : Prop :=
  ∀ (s : State) (q h : Number), Ready Family.isSensirion s →
    ∃ t u, runEvents s [.setT (.finite q), .setH (.finite h)] = .next t ∧
      runEvents s [.setH (.finite h), .setT (.finite q)] = .next u ∧ SameBlock t u

/-! ### Reset and platform -/

/-- R360 to R363: what power-on leaves. -/
def Obligations.PowerOnState : Prop :=
  ∀ c : Config,
    (∀ i : Fin 24, (State.powerOn c).readByte (0x88 + i) = c.cal.words[i]) ∧
    (State.powerOn c).readByte 0xA1 = c.cal.h1 ∧
    (∀ i : Fin 7, (State.powerOn c).readByte (0xE1 + i) = c.cal.packed[i]) ∧
    (State.powerOn c).readByte 0xD0 = c.chipId ∧ (State.powerOn c).readByte 0xF3 = c.statusInit ∧
    (State.powerOn c).readByte 0xF7 = c.pressAdc.extractLsb' 12 8 ∧
    (State.powerOn c).readByte 0xF8 = c.pressAdc.extractLsb' 4 8 ∧
    (State.powerOn c).readByte 0xF9 = c.pressAdc.extractLsb' 0 4 ++ 0#4 ∧
    (∀ a, a < 256 →
      ¬ (0x88 ≤ a ∧ a ≤ 0x9F) → a ≠ 0xA1 → a ≠ 0xD0 → ¬ (0xE1 ≤ a ∧ a ≤ 0xE7) → a ≠ 0xF3 → ¬ (0xF7 ≤ a ∧ a ≤ 0xF9) →
      (State.powerOn c).readByte a = 0x00#8) ∧
    (State.powerOn c).ca = 0x00#8 ∧ (State.powerOn c).ps = .idle ∧ (State.powerOn c).cmd = 0x0000#16 ∧
    (State.powerOn c).tRaw = 0x0000#16 ∧ (State.powerOn c).hRaw = 0x0000#16 ∧ (State.powerOn c).status = c.statusReset ∧
    (State.powerOn c).serial.toList = Spec.frame [c.serialW0, c.serialW1] ∧ (State.powerOn c).protocolState = .idle ∧
    ∀ f, (Config.shipped f).statusReset = 0x8008#16

/-- R344, R360: a power cycle leaves the power-on state of the same configuration, whatever the state before; what has
arrived stays queued (DESIGN CHOICE, log 28). -/
def Obligations.PowerCycleResets : Prop :=
  ∀ (s : State) (rest : List Input), s.cfg.wellFormed = true → s.input = .powerCycle :: rest →
    step s = .next { State.powerOn s.cfg with input := rest, free := s.free }

/-- R12, R110, R126: a transfer to another address never reaches the block; one to its own address arrives as the event of
its direction, a write with the first `MAX_RX` of its bytes, or with all of them where there is no limit. What the platform
does is the model's choice (log 15). -/
def Obligations.PlatformDelivers : Prop :=
  ∀ (s : State) (t : Transfer),
    (t.addr ≠ s.cfg.busAddr → s.onWire t = s) ∧
    (t.addr = s.cfg.busAddr → t.read = true →
      s.onWire t = { s with input := s.input ++ [.event (.busRead t.clocks)] }) ∧
    (t.addr = s.cfg.busAddr → t.read = false → ∃ b, b <+: t.bytes ∧ (s.cfg.maxRx = none → b = t.bytes) ∧
      (∀ n, s.cfg.maxRx = some n → b = t.bytes.take n) ∧
      s.onWire t = { s with input := s.input ++ [.event (.busWrite b)] })
end

