-- ==== Sys2Proof/Laws/State.lean ====
section
/-! SUPPORT. One lemma per field per update of State, so that no proof unfolds a record update. -/

namespace Sys2Proof.Machine

variable (s : State)

@[simp] theorem State.begin_cfg : s.begin.cfg = s.cfg := rfl
@[simp] theorem State.begin_x : s.begin.x = s.x := rfl
@[simp] theorem State.begin_ca : s.begin.ca = s.ca := rfl
@[simp] theorem State.begin_ps : s.begin.ps = s.ps := rfl
@[simp] theorem State.begin_cmd : s.begin.cmd = s.cmd := rfl
@[simp] theorem State.begin_tRaw : s.begin.tRaw = s.tRaw := rfl
@[simp] theorem State.begin_hRaw : s.begin.hRaw = s.hRaw := rfl
@[simp] theorem State.begin_status : s.begin.status = s.status := rfl
@[simp] theorem State.begin_serial : s.begin.serial = s.serial := rfl
@[simp] theorem State.begin_input : s.begin.input = s.input := rfl
@[simp] theorem State.begin_offered : s.begin.offered = [] := rfl
@[simp] theorem State.begin_received : s.begin.received = [] := rfl
@[simp] theorem State.begin_notes : s.begin.notes = [] := rfl
@[simp] theorem State.begin_free : s.begin.free = s.free := rfl

@[simp] theorem State.note_cfg (l : List ErrorClass) : (s.note l).cfg = s.cfg := rfl
@[simp] theorem State.note_x (l : List ErrorClass) : (s.note l).x = s.x := rfl
@[simp] theorem State.note_ca (l : List ErrorClass) : (s.note l).ca = s.ca := rfl
@[simp] theorem State.note_ps (l : List ErrorClass) : (s.note l).ps = s.ps := rfl
@[simp] theorem State.note_cmd (l : List ErrorClass) : (s.note l).cmd = s.cmd := rfl
@[simp] theorem State.note_tRaw (l : List ErrorClass) : (s.note l).tRaw = s.tRaw := rfl
@[simp] theorem State.note_hRaw (l : List ErrorClass) : (s.note l).hRaw = s.hRaw := rfl
@[simp] theorem State.note_status (l : List ErrorClass) : (s.note l).status = s.status := rfl
@[simp] theorem State.note_serial (l : List ErrorClass) : (s.note l).serial = s.serial := rfl
@[simp] theorem State.note_input (l : List ErrorClass) : (s.note l).input = s.input := rfl
@[simp] theorem State.note_offered (l : List ErrorClass) : (s.note l).offered = s.offered := rfl
@[simp] theorem State.note_received (l : List ErrorClass) : (s.note l).received = s.received := rfl
@[simp] theorem State.note_notes (l : List ErrorClass) : (s.note l).notes = s.notes ++ l := rfl
@[simp] theorem State.note_free (l : List ErrorClass) : (s.note l).free = s.free := rfl

@[simp] theorem State.latch_cfg (code : Word16) : (s.latch code).cfg = s.cfg := rfl
@[simp] theorem State.latch_x (code : Word16) : (s.latch code).x = s.x := rfl
@[simp] theorem State.latch_ca (code : Word16) : (s.latch code).ca = s.ca := rfl
@[simp] theorem State.latch_ps (code : Word16) : (s.latch code).ps = s.ps := rfl
@[simp] theorem State.latch_cmd (code : Word16) : (s.latch code).cmd = code := rfl
@[simp] theorem State.latch_tRaw (code : Word16) : (s.latch code).tRaw = s.tRaw := rfl
@[simp] theorem State.latch_hRaw (code : Word16) : (s.latch code).hRaw = s.hRaw := rfl
@[simp] theorem State.latch_status (code : Word16) : (s.latch code).status = s.status := rfl
@[simp] theorem State.latch_serial (code : Word16) : (s.latch code).serial = s.serial := rfl
@[simp] theorem State.latch_input (code : Word16) : (s.latch code).input = s.input := rfl
@[simp] theorem State.latch_offered (code : Word16) : (s.latch code).offered = s.offered := rfl
@[simp] theorem State.latch_received (code : Word16) : (s.latch code).received = s.received := rfl
@[simp] theorem State.latch_notes (code : Word16) : (s.latch code).notes = s.notes := rfl
@[simp] theorem State.latch_free (code : Word16) : (s.latch code).free = s.free := rfl

@[simp] theorem State.latchAddress_cfg : s.latchAddress.cfg = s.cfg := rfl
@[simp] theorem State.latchAddress_x : s.latchAddress.x = s.x := rfl
@[simp] theorem State.latchAddress_ca : s.latchAddress.ca = s.ca := rfl
@[simp] theorem State.latchAddress_ps : s.latchAddress.ps = .addressLatched := rfl
@[simp] theorem State.latchAddress_cmd : s.latchAddress.cmd = s.cmd := rfl
@[simp] theorem State.latchAddress_tRaw : s.latchAddress.tRaw = s.tRaw := rfl
@[simp] theorem State.latchAddress_hRaw : s.latchAddress.hRaw = s.hRaw := rfl
@[simp] theorem State.latchAddress_status : s.latchAddress.status = s.status := rfl
@[simp] theorem State.latchAddress_serial : s.latchAddress.serial = s.serial := rfl
@[simp] theorem State.latchAddress_input : s.latchAddress.input = s.input := rfl
@[simp] theorem State.latchAddress_offered : s.latchAddress.offered = s.offered := rfl
@[simp] theorem State.latchAddress_received : s.latchAddress.received = s.received := rfl
@[simp] theorem State.latchAddress_notes : s.latchAddress.notes = s.notes := rfl
@[simp] theorem State.latchAddress_free : s.latchAddress.free = s.free := rfl

@[simp] theorem State.writeByte_cfg (a : Nat) (v : Byte) : (s.writeByte a v).cfg = s.cfg := rfl
@[simp] theorem State.writeByte_x (a : Nat) (v : Byte) : (s.writeByte a v).x = Memory.write s.cfg.resetByte s.x a v := rfl
@[simp] theorem State.writeByte_ca (a : Nat) (v : Byte) : (s.writeByte a v).ca = s.ca := rfl
@[simp] theorem State.writeByte_ps (a : Nat) (v : Byte) : (s.writeByte a v).ps = s.ps := rfl
@[simp] theorem State.writeByte_cmd (a : Nat) (v : Byte) : (s.writeByte a v).cmd = s.cmd := rfl
@[simp] theorem State.writeByte_tRaw (a : Nat) (v : Byte) : (s.writeByte a v).tRaw = s.tRaw := rfl
@[simp] theorem State.writeByte_hRaw (a : Nat) (v : Byte) : (s.writeByte a v).hRaw = s.hRaw := rfl
@[simp] theorem State.writeByte_status (a : Nat) (v : Byte) : (s.writeByte a v).status = s.status := rfl
@[simp] theorem State.writeByte_serial (a : Nat) (v : Byte) : (s.writeByte a v).serial = s.serial := rfl
@[simp] theorem State.writeByte_input (a : Nat) (v : Byte) : (s.writeByte a v).input = s.input := rfl
@[simp] theorem State.writeByte_offered (a : Nat) (v : Byte) : (s.writeByte a v).offered = s.offered := rfl
@[simp] theorem State.writeByte_received (a : Nat) (v : Byte) : (s.writeByte a v).received = s.received := rfl
@[simp] theorem State.writeByte_notes (a : Nat) (v : Byte) : (s.writeByte a v).notes = s.notes := rfl
@[simp] theorem State.writeByte_free (a : Nat) (v : Byte) : (s.writeByte a v).free = s.free := rfl

@[simp] theorem State.emit_cfg (b : List Byte) (k : Option Nat) : (s.emit b k).cfg = s.cfg := rfl
@[simp] theorem State.emit_x (b : List Byte) (k : Option Nat) : (s.emit b k).x = s.x := rfl
@[simp] theorem State.emit_ca (b : List Byte) (k : Option Nat) : (s.emit b k).ca = s.ca := rfl
@[simp] theorem State.emit_ps (b : List Byte) (k : Option Nat) : (s.emit b k).ps = s.ps := rfl
@[simp] theorem State.emit_cmd (b : List Byte) (k : Option Nat) : (s.emit b k).cmd = s.cmd := rfl
@[simp] theorem State.emit_tRaw (b : List Byte) (k : Option Nat) : (s.emit b k).tRaw = s.tRaw := rfl
@[simp] theorem State.emit_hRaw (b : List Byte) (k : Option Nat) : (s.emit b k).hRaw = s.hRaw := rfl
@[simp] theorem State.emit_status (b : List Byte) (k : Option Nat) : (s.emit b k).status = s.status := rfl
@[simp] theorem State.emit_serial (b : List Byte) (k : Option Nat) : (s.emit b k).serial = s.serial := rfl
@[simp] theorem State.emit_input (b : List Byte) (k : Option Nat) : (s.emit b k).input = s.input := rfl
@[simp] theorem State.emit_offered (b : List Byte) (k : Option Nat) : (s.emit b k).offered = b := rfl
@[simp] theorem State.emit_received (b : List Byte) (k : Option Nat) : (s.emit b k).received = clockOut b k fun i => Config.overread (s.free + i) := rfl
@[simp] theorem State.emit_notes (b : List Byte) (k : Option Nat) : (s.emit b k).notes = s.notes := rfl
@[simp] theorem State.emit_free (b : List Byte) (k : Option Nat) : (s.emit b k).free = s.free + overreadCount b.length k := rfl

@[simp] theorem State.memWrite_cfg (a : Nat) (l : List Byte) : (s.memWrite a l).cfg = s.cfg := by
  induction l generalizing s a with
  | nil => rfl
  | cons v rest ih => simp [State.memWrite, ih]

@[simp] theorem State.memWrite_ca (a : Nat) (l : List Byte) : (s.memWrite a l).ca = s.ca := by
  induction l generalizing s a with
  | nil => rfl
  | cons v rest ih => simp [State.memWrite, ih]

@[simp] theorem State.memWrite_ps (a : Nat) (l : List Byte) : (s.memWrite a l).ps = s.ps := by
  induction l generalizing s a with
  | nil => rfl
  | cons v rest ih => simp [State.memWrite, ih]

@[simp] theorem State.memWrite_cmd (a : Nat) (l : List Byte) : (s.memWrite a l).cmd = s.cmd := by
  induction l generalizing s a with
  | nil => rfl
  | cons v rest ih => simp [State.memWrite, ih]

@[simp] theorem State.memWrite_tRaw (a : Nat) (l : List Byte) : (s.memWrite a l).tRaw = s.tRaw := by
  induction l generalizing s a with
  | nil => rfl
  | cons v rest ih => simp [State.memWrite, ih]

@[simp] theorem State.memWrite_hRaw (a : Nat) (l : List Byte) : (s.memWrite a l).hRaw = s.hRaw := by
  induction l generalizing s a with
  | nil => rfl
  | cons v rest ih => simp [State.memWrite, ih]

@[simp] theorem State.memWrite_status (a : Nat) (l : List Byte) : (s.memWrite a l).status = s.status := by
  induction l generalizing s a with
  | nil => rfl
  | cons v rest ih => simp [State.memWrite, ih]

@[simp] theorem State.memWrite_serial (a : Nat) (l : List Byte) : (s.memWrite a l).serial = s.serial := by
  induction l generalizing s a with
  | nil => rfl
  | cons v rest ih => simp [State.memWrite, ih]

@[simp] theorem State.memWrite_input (a : Nat) (l : List Byte) : (s.memWrite a l).input = s.input := by
  induction l generalizing s a with
  | nil => rfl
  | cons v rest ih => simp [State.memWrite, ih]

@[simp] theorem State.memWrite_offered (a : Nat) (l : List Byte) : (s.memWrite a l).offered = s.offered := by
  induction l generalizing s a with
  | nil => rfl
  | cons v rest ih => simp [State.memWrite, ih]

@[simp] theorem State.memWrite_received (a : Nat) (l : List Byte) : (s.memWrite a l).received = s.received := by
  induction l generalizing s a with
  | nil => rfl
  | cons v rest ih => simp [State.memWrite, ih]

@[simp] theorem State.memWrite_notes (a : Nat) (l : List Byte) : (s.memWrite a l).notes = s.notes := by
  induction l generalizing s a with
  | nil => rfl
  | cons v rest ih => simp [State.memWrite, ih]

@[simp] theorem State.memWrite_free (a : Nat) (l : List Byte) : (s.memWrite a l).free = s.free := by
  induction l generalizing s a with
  | nil => rfl
  | cons v rest ih => simp [State.memWrite, ih]

@[simp] theorem State.put20_cfg (a : Nat) (v : Word20) : (s.put20 a v).cfg = s.cfg := by
  simp [State.put20]

@[simp] theorem State.put20_ca (a : Nat) (v : Word20) : (s.put20 a v).ca = s.ca := by
  simp [State.put20]

@[simp] theorem State.put20_ps (a : Nat) (v : Word20) : (s.put20 a v).ps = s.ps := by
  simp [State.put20]

@[simp] theorem State.put20_cmd (a : Nat) (v : Word20) : (s.put20 a v).cmd = s.cmd := by
  simp [State.put20]

@[simp] theorem State.put20_tRaw (a : Nat) (v : Word20) : (s.put20 a v).tRaw = s.tRaw := by
  simp [State.put20]

@[simp] theorem State.put20_hRaw (a : Nat) (v : Word20) : (s.put20 a v).hRaw = s.hRaw := by
  simp [State.put20]

@[simp] theorem State.put20_status (a : Nat) (v : Word20) : (s.put20 a v).status = s.status := by
  simp [State.put20]

@[simp] theorem State.put20_serial (a : Nat) (v : Word20) : (s.put20 a v).serial = s.serial := by
  simp [State.put20]

@[simp] theorem State.put20_input (a : Nat) (v : Word20) : (s.put20 a v).input = s.input := by
  simp [State.put20]

@[simp] theorem State.put20_offered (a : Nat) (v : Word20) : (s.put20 a v).offered = s.offered := by
  simp [State.put20]

@[simp] theorem State.put20_received (a : Nat) (v : Word20) : (s.put20 a v).received = s.received := by
  simp [State.put20]

@[simp] theorem State.put20_notes (a : Nat) (v : Word20) : (s.put20 a v).notes = s.notes := by
  simp [State.put20]

@[simp] theorem State.put20_free (a : Nat) (v : Word20) : (s.put20 a v).free = s.free := by
  simp [State.put20]

@[simp] theorem State.effect_cfg (k : Kind) : (s.effect k).cfg = s.cfg := by
  unfold State.effect; split <;> rfl

@[simp] theorem State.effect_x (k : Kind) : (s.effect k).x = s.x := by
  unfold State.effect; split <;> rfl

@[simp] theorem State.effect_ca (k : Kind) : (s.effect k).ca = s.ca := by
  unfold State.effect; split <;> rfl

@[simp] theorem State.effect_ps (k : Kind) : (s.effect k).ps = s.ps := by
  unfold State.effect; split <;> rfl

@[simp] theorem State.effect_cmd (k : Kind) : (s.effect k).cmd = s.cmd := by
  unfold State.effect; split <;> rfl

@[simp] theorem State.effect_tRaw (k : Kind) : (s.effect k).tRaw = s.tRaw := by
  unfold State.effect; split <;> rfl

@[simp] theorem State.effect_hRaw (k : Kind) : (s.effect k).hRaw = s.hRaw := by
  unfold State.effect; split <;> rfl

@[simp] theorem State.effect_serial (k : Kind) : (s.effect k).serial = s.serial := by
  unfold State.effect; split <;> rfl

@[simp] theorem State.effect_input (k : Kind) : (s.effect k).input = s.input := by
  unfold State.effect; split <;> rfl

@[simp] theorem State.effect_offered (k : Kind) : (s.effect k).offered = s.offered := by
  unfold State.effect; split <;> rfl

@[simp] theorem State.effect_received (k : Kind) : (s.effect k).received = s.received := by
  unfold State.effect; split <;> rfl

@[simp] theorem State.effect_notes (k : Kind) : (s.effect k).notes = s.notes := by
  unfold State.effect; split <;> rfl

@[simp] theorem State.effect_free (k : Kind) : (s.effect k).free = s.free := by
  unfold State.effect; split <;> rfl

@[simp] theorem State.consume_cfg : s.consume.cfg = s.cfg := by
  unfold State.consume; split <;> rfl

@[simp] theorem State.consume_x : s.consume.x = s.x := by
  unfold State.consume; split <;> rfl

@[simp] theorem State.consume_ca : s.consume.ca = s.ca := by
  unfold State.consume; split <;> rfl

@[simp] theorem State.consume_ps : s.consume.ps = s.ps := by
  unfold State.consume; split <;> rfl

@[simp] theorem State.consume_tRaw : s.consume.tRaw = s.tRaw := by
  unfold State.consume; split <;> rfl

@[simp] theorem State.consume_hRaw : s.consume.hRaw = s.hRaw := by
  unfold State.consume; split <;> rfl

@[simp] theorem State.consume_status : s.consume.status = s.status := by
  unfold State.consume; split <;> rfl

@[simp] theorem State.consume_serial : s.consume.serial = s.serial := by
  unfold State.consume; split <;> rfl

@[simp] theorem State.consume_input : s.consume.input = s.input := by
  unfold State.consume; split <;> rfl

@[simp] theorem State.consume_offered : s.consume.offered = s.offered := by
  unfold State.consume; split <;> rfl

@[simp] theorem State.consume_received : s.consume.received = s.received := by
  unfold State.consume; split <;> rfl

@[simp] theorem State.consume_notes : s.consume.notes = s.notes := by
  unfold State.consume; split <;> rfl

@[simp] theorem State.consume_free : s.consume.free = s.free := by
  unfold State.consume; split <;> rfl

@[simp] theorem State.powerOn_cfg (c : Config) : (State.powerOn c).cfg = c := rfl
@[simp] theorem State.powerOn_x (c : Config) : (State.powerOn c).x = [] := rfl
@[simp] theorem State.powerOn_ca (c : Config) : (State.powerOn c).ca = 0x00#8 := rfl
@[simp] theorem State.powerOn_ps (c : Config) : (State.powerOn c).ps = .idle := rfl
@[simp] theorem State.powerOn_cmd (c : Config) : (State.powerOn c).cmd = 0x0000#16 := rfl
@[simp] theorem State.powerOn_tRaw (c : Config) : (State.powerOn c).tRaw = 0x0000#16 := rfl
@[simp] theorem State.powerOn_hRaw (c : Config) : (State.powerOn c).hRaw = 0x0000#16 := rfl
@[simp] theorem State.powerOn_status (c : Config) : (State.powerOn c).status = c.statusReset := rfl
@[simp] theorem State.powerOn_serial (c : Config) : (State.powerOn c).serial = c.serialFrame := rfl
@[simp] theorem State.powerOn_input (c : Config) : (State.powerOn c).input = [] := rfl
@[simp] theorem State.powerOn_offered (c : Config) : (State.powerOn c).offered = [] := rfl
@[simp] theorem State.powerOn_received (c : Config) : (State.powerOn c).received = [] := rfl
@[simp] theorem State.powerOn_notes (c : Config) : (State.powerOn c).notes = [] := rfl
@[simp] theorem State.powerOn_free (c : Config) : (State.powerOn c).free = 0 := rfl

end Sys2Proof.Machine
end

