-- ==== Sys2Proof/Laws/Memory.lean ====
section
/-! SUPPORT. The register file: read after write, the frame of a write, and the canonical form, which every operation
keeps and the reset state has. -/

namespace Sys2Proof.Machine

theorem Memory.read_of_lt (d : Nat → Byte) {m : List Host.Cell} {a : Nat} (h : ∀ e ∈ m, a < e.1) :
    Memory.read d m a = d a := by
  induction m with
  | nil => rfl
  | cons e rest ih =>
    obtain ⟨k, w⟩ := e
    have hk : a < k := h (k, w) (by simp)
    simp only [Memory.read, if_neg (by omega : ¬ k = a)]
    exact ih fun e he => h e (by simp [he])

/-- Read after write at the same address. -/
theorem Memory.read_write_same (d : Nat → Byte) {m : List Host.Cell} (a : Nat) (v : Byte)
    (h : m.Pairwise fun e e' => e.1 < e'.1) : Memory.read d (Memory.write d m a v) a = v := by
  induction m with
  | nil => by_cases hv : v = d a <;> simp [Memory.write, Memory.read, hv]
  | cons e rest ih =>
    obtain ⟨k, w⟩ := e
    rw [List.pairwise_cons] at h
    unfold Memory.write
    split_ifs with h1 h2 h3 h3
    · rw [Memory.read, if_neg (by omega)]; exact ih h.2
    · subst h2; subst h3
      exact Memory.read_of_lt d fun e he => h.1 e he
    · simp [Memory.read]
    · subst h3
      refine Memory.read_of_lt d fun e he => ?_
      rcases List.mem_cons.1 he with rfl | he
      · exact (by omega : a < k)
      · have : k < e.1 := h.1 e he
        omega
    · simp [Memory.read]

/-- A write leaves every other address alone. -/
theorem Memory.read_write_other (d : Nat → Byte) (m : List Host.Cell) {a b : Nat} (v : Byte) (h : b ≠ a) :
    Memory.read d (Memory.write d m a v) b = Memory.read d m b := by
  induction m with
  | nil => by_cases hv : v = d a <;> simp [Memory.write, Memory.read, hv, Ne.symm h]
  | cons e rest ih =>
    obtain ⟨k, w⟩ := e
    unfold Memory.write
    split_ifs with h1 h2 h3 h3
    · simp [Memory.read, ih]
    · subst h2; simp [Memory.read, Ne.symm h]
    · subst h2; simp [Memory.read, Ne.symm h]
    · rfl
    · simp [Memory.read, Ne.symm h]

theorem Memory.mem_write {d : Nat → Byte} {m : List Host.Cell} {a : Nat} {v : Byte} {e : Host.Cell}
    (h : e ∈ Memory.write d m a v) : e ∈ m ∨ (e = (a, v) ∧ v ≠ d a) := by
  induction m with
  | nil =>
    by_cases hv : v = d a <;> simp_all [Memory.write]
  | cons c rest ih =>
    obtain ⟨k, w⟩ := c
    unfold Memory.write at h
    split_ifs at h with h1 h2 h3 h3
    · rcases List.mem_cons.1 h with rfl | h
      · exact .inl (by simp)
      · rcases ih h with h | h
        · exact .inl (by simp [h])
        · exact .inr h
    · exact .inl (by simp [h])
    · rcases List.mem_cons.1 h with rfl | h
      · exact .inr ⟨rfl, h3⟩
      · exact .inl (by simp [h])
    · exact .inl h
    · rcases List.mem_cons.1 h with rfl | h
      · exact .inr ⟨rfl, h3⟩
      · exact .inl h

theorem Memory.write_rising {d : Nat → Byte} {m : List Host.Cell} (a : Nat) (v : Byte)
    (h : m.Pairwise fun e e' => e.1 < e'.1) : (Memory.write d m a v).Pairwise fun e e' => e.1 < e'.1 := by
  induction m with
  | nil => by_cases hv : v = d a <;> simp [Memory.write, hv]
  | cons c rest ih =>
    obtain ⟨k, w⟩ := c
    have hc := List.pairwise_cons.1 h
    unfold Memory.write
    split_ifs with h1 h2 h3 h3
    · refine List.pairwise_cons.2 ⟨fun e he => ?_, ih hc.2⟩
      rcases Memory.mem_write he with he | ⟨rfl, -⟩
      · exact hc.1 e he
      · exact h1
    · exact hc.2
    · subst h2; exact List.pairwise_cons.2 ⟨hc.1, hc.2⟩
    · exact h
    · refine List.pairwise_cons.2 ⟨fun e he => ?_, h⟩
      rcases List.mem_cons.1 he with rfl | he
      · exact (by omega : a < k)
      · have : k < e.1 := hc.1 e he
        show a < e.1
        omega

/-- A write within the register file keeps the canonical form. -/
theorem Memory.write_wf {d : Nat → Byte} {m : List Host.Cell} {a : Nat} (v : Byte) (ha : a < 256)
    (h : Memory.wf d m) : Memory.wf d (Memory.write d m a v) := by
  refine ⟨Memory.write_rising a v h.1, fun e he => ?_⟩
  rcases Memory.mem_write he with he | ⟨rfl, hv⟩
  · exact h.2 e he
  · exact ⟨ha, hv⟩

variable {s : State}

theorem State.writeByte_memWf {a : Nat} (v : Byte) (ha : a < 256) (h : s.memWf) : (s.writeByte a v).memWf :=
  Memory.write_wf v ha h

theorem State.readByte_writeByte_same {a : Nat} (v : Byte) (h : s.memWf) : (s.writeByte a v).readByte a = v :=
  Memory.read_write_same _ a v h.1

@[simp] theorem State.readByte_writeByte_other (s : State) {a b : Nat} (v : Byte) (h : b ≠ a) :
    (s.writeByte a v).readByte b = s.readByte b :=
  Memory.read_write_other _ _ v h

/-- Two states with the same configuration and register file read the same. -/
theorem State.readByte_congr {s t : State} (hc : s.cfg = t.cfg) (hx : s.x = t.x) (a : Nat) :
    s.readByte a = t.readByte a := by
  simp [State.readByte, hc, hx]

theorem State.memWrite_memWf {a : Nat} {l : List Byte} (ha : a + l.length ≤ 256) (h : s.memWf) :
    (s.memWrite a l).memWf := by
  induction l generalizing s a with
  | nil => exact h
  | cons v rest ih =>
    simp only [List.length_cons] at ha
    exact ih (by omega) (State.writeByte_memWf v (by omega) h)

/-- `MemWrite` leaves every byte outside its range alone. -/
theorem State.readByte_memWrite_other (s : State) {a b : Nat} {l : List Byte} (h : b < a ∨ a + l.length ≤ b) :
    (s.memWrite a l).readByte b = s.readByte b := by
  induction l generalizing s a with
  | nil => rfl
  | cons v rest ih =>
    simp only [List.length_cons] at h
    have := ih (s.writeByte a v) (a := a + 1) (by omega)
    rw [State.memWrite, this, State.readByte_writeByte_other _ _ (by omega)]

/-- `MemWrite` stores its bytes in order. -/
theorem State.readByte_memWrite {a i : Nat} {l : List Byte} (ha : a + l.length ≤ 256) (hi : i < l.length)
    (h : s.memWf) : (s.memWrite a l).readByte (a + i) = l.getD i 0#8 := by
  induction l generalizing s a i with
  | nil => simp at hi
  | cons v rest ih =>
    simp only [List.length_cons] at ha hi
    cases i with
    | zero =>
      rw [State.memWrite, State.readByte_memWrite_other _ (by omega)]
      simpa using State.readByte_writeByte_same v h
    | succ i =>
      have := ih (s := s.writeByte a v) (a := a + 1) (i := i) (by omega) (by omega)
        (State.writeByte_memWf v (by omega) h)
      rw [State.memWrite, show a + (i + 1) = a + 1 + i by omega, this]
      simp

@[simp] theorem State.memRead_length (s : State) (a n : Nat) : (s.memRead a n).length = n := by
  simp [State.memRead]

/-- `MemRead(a, n)` holds `x[a + i]` at index i. -/
theorem State.memRead_getElem? (s : State) (a n i : Nat) (h : i < n) :
    (s.memRead a n)[i]? = some (s.readByte (a + i)) := by
  simp [State.memRead, h]

/-- The register file of every power-on state is in canonical form. -/
theorem State.powerOn_memWf (c : Config) : (State.powerOn c).memWf := by
  simp [State.memWf, Memory.wf]

/-- The register file of the reset state is in canonical form. -/
theorem State.reset_memWf : State.reset.memWf := State.powerOn_memWf _

/-- After power-on every byte reads as the reset image has it. -/
@[simp] theorem State.readByte_powerOn (c : Config) (a : Nat) : (State.powerOn c).readByte a = c.resetByte a := rfl

end Sys2Proof.Machine
end

