-- ==== Sys2Proof/Laws/Reals.lean ====
section
/-! SUPPORT. The values of real terms and what each decision on them says. -/

namespace Sys2Proof

@[simp] theorem Number.value_rat (q : Rat) : (Number.rat q).value = (q : ℝ) := rfl

@[simp] theorem Number.value_real (k : Nat) : (Number.real k).value = Config.reals.number k := rfl

namespace RealTerm

@[simp] theorem value_num (n : Number) : (num n).value = n.value := rfl

@[simp] theorem value_add (a b : RealTerm) : (add a b).value = a.value + b.value := rfl

@[simp] theorem value_mul (a b : RealTerm) : (mul a b).value = a.value * b.value := rfl

@[simp] theorem value_ofRat (q : Rat) : (ofRat q).value = (q : ℝ) := rfl

@[simp] theorem value_scale (q : Rat) (t : RealTerm) : (scale q t).value = q * t.value := rfl

@[simp] theorem value_neg (t : RealTerm) : (neg t).value = -t.value := by simp [neg]

@[simp] theorem value_sub (a b : RealTerm) : (sub a b).value = a.value - b.value := by simp [sub, sub_eq_add_neg]

/-- A term that names no opaque number has its rational value, whatever the names stand for. -/
theorem valueIn_of_isRational {t : RealTerm} (number : Nat → ℝ) (h : t.isRational = true) :
    t.valueIn number = (t.rational : ℝ) := by
  induction t with
  | num n =>
    cases n with
    | rat q => rfl
    | real k => cases h
  | add a b ha hb =>
    obtain ⟨h1, h2⟩ : a.isRational = true ∧ b.isRational = true := by simpa [isRational] using h
    simp [valueIn, rational, ha h1, hb h2]
  | mul a b ha hb =>
    obtain ⟨h1, h2⟩ : a.isRational = true ∧ b.isRational = true := by simpa [isRational] using h
    simp [valueIn, rational, ha h1, hb h2]

/-- The one decision all others are made of. -/
@[simp] theorem isNonneg_iff (t : RealTerm) : t.isNonneg = true ↔ 0 ≤ t.value := by
  unfold isNonneg
  split_ifs with h
  · simp [value, valueIn_of_isRational _ h]
  · exact Config.reals.lawful t

@[simp] theorem isPos_iff (t : RealTerm) : t.isPos = true ↔ 0 < t.value := by
  rw [isPos, Bool.not_eq_true', ← Bool.not_eq_true, isNonneg_iff, value_neg]
  constructor <;> intro h <;> linarith

@[simp] theorem isZero_iff (t : RealTerm) : t.isZero = true ↔ t.value = 0 := by
  rw [isZero, Bool.and_eq_true, isNonneg_iff, isNonneg_iff, value_neg]
  exact ⟨fun h => by linarith [h.1, h.2], fun h => by simp [h]⟩

end RealTerm

@[simp] theorem Number.above_iff (n : Number) (q : Rat) : n.above q = true ↔ (q : ℝ) < n.value := by
  simp [above]

@[simp] theorem Number.below_iff (n : Number) (q : Rat) : n.below q = true ↔ n.value < (q : ℝ) := by
  simp [below]

/-- `clamp` of R18. -/
theorem Number.value_clamp (n : Number) {lo hi : Rat} (h : lo ≤ hi) :
    (n.clamp lo hi).value = min (max n.value lo) hi := by
  have h' : (lo : ℝ) ≤ hi := by exact_mod_cast h
  unfold clamp
  split_ifs with h1 h2
  · rw [below_iff] at h1; simp [max_eq_right h1.le, h']
  · rw [above_iff] at h2; simp [max_eq_left (h'.trans h2.le), h2.le]
  · rw [below_iff, not_lt] at h1
    rw [above_iff, not_lt] at h2
    simp [max_eq_left h1, min_eq_left h2]

end Sys2Proof
end

