-- ==== Sys2Proof/Laws/Ops.lean ====
section
/-! SUPPORT. One lemma per shared operation that says everything it can do. -/

namespace Sys2Proof.Machine

variable {ok : Family → Bool} {s t : State}

/-- An event answers a next state exactly in a well-formed instance of its family, and it is the body's. -/
theorem onFamily_next {body : State → State} :
    onFamily ok s body = .next t ↔ s.cfg.wellFormed = true ∧ ok s.cfg.family = true ∧ body s.begin = t := by
  unfold onFamily
  split_ifs <;> simp_all

/-- In a well-formed instance of its family an event runs its body. -/
theorem onFamily_ready {body : State → State} (hc : s.cfg.wellFormed = true) (hf : ok s.cfg.family = true) :
    onFamily ok s body = .next (body s.begin) := by
  simp [onFamily, hc, hf]

/-- A host call answers a next state exactly on a finite argument, and it is the body's. -/
theorem onHostCall_next {v : HostValue} {body : Number → State → State} :
    onHostCall ok v s body = .next t ↔
      ∃ q, v = .finite q ∧ s.cfg.wellFormed = true ∧ ok s.cfg.family = true ∧ body q s.begin = t := by
  cases v <;> simp [onHostCall, onFamily_next]

/-- No event faults. -/
theorem onFamily_ne_fault {body : State → State} (r : Fault) : onFamily ok s body ≠ .fault r := nomatch r

/-- Taking the oldest arrival changes nothing but the queue. -/
theorem nextInput_some {i : Input} : nextInput s = some (i, t) ↔ s.input = i :: t.input ∧ t = { s with input := t.input } := by
  unfold nextInput
  cases h : s.input with
  | nil => simp
  | cons j rest =>
    simp only [Option.some.injEq, Prod.mk.injEq, List.cons.injEq]
    constructor
    · rintro ⟨rfl, rfl⟩; simp
    · rintro ⟨⟨rfl, hr⟩, ht⟩; exact ⟨rfl, by rw [ht, hr]⟩

theorem nextInput_none : nextInput s = none ↔ s.input = [] := by
  unfold nextInput
  cases h : s.input <;> simp

/-- A power cycle: everything but the configuration, the queue and the platform's counter takes its reset value. -/
theorem powerCycle_next :
    powerCycle s = .next t ↔
      s.cfg.wellFormed = true ∧ { State.powerOn s.cfg with input := s.input, free := s.free } = t := by
  unfold powerCycle
  split_ifs <;> simp_all

/-- The controller receives the offered bytes it clocks, then what the platform supplies. -/
theorem clockOut_some (offered : List Byte) (k : Nat) (past : Nat → Option Byte) :
    clockOut offered (some k) past =
      (offered.take k).map some ++ (List.range (k - offered.length)).map past := rfl

@[simp] theorem clockOut_none (offered : List Byte) (past : Nat → Option Byte) :
    clockOut offered none past = offered.map some := rfl

/-- The write-time effect of a kind: STATUS on SHT31, nothing elsewhere. -/
theorem State.effect_status (s : State) (k : Kind) :
    (s.effect k).status = if s.cfg.family = .sht31 then statusEffect s.cfg k s.status else s.status := by
  unfold State.effect
  cases h : s.cfg.family <;> simp

/-- The consumption of the latched command. -/
theorem State.consume_cmd (s : State) : s.consume.cmd = if s.cfg.consumeOnRead then 0x0000#16 else s.cmd := by
  unfold State.consume
  split <;> simp

@[simp] theorem State.begin_readByte (s : State) (a : Nat) : s.begin.readByte a = s.readByte a := rfl

@[simp] theorem State.note_readByte (s : State) (l : List ErrorClass) (a : Nat) :
    (s.note l).readByte a = s.readByte a := rfl

@[simp] theorem State.begin_begin (s : State) : s.begin.begin = s.begin := rfl

/-- Within tolerance 0 an implementation stores the exact integer. -/
theorem stored_exact {c : Config} (call : CodecCall) {m exact : Nat} (h : c.codecTolerance = 0) (hm : exact ≤ m) :
    stored c call m exact = exact := by
  simp only [stored, deviation, h, if_true, clampInt]
  omega

/-- A stored integer fits its field. -/
theorem stored_le (c : Config) (call : CodecCall) (m exact : Nat) : stored c call m exact ≤ m := by
  simp only [stored, clampInt]
  omega

/-- What the search answers: the base and the fewer than 2^bits above it that `p` admits, for a downward closed `p`. -/
theorem greatest_spec {p : Nat → Bool} (hp : ∀ i j, i ≤ j → p j = true → p i = true) (bits base : Nat) :
    base ≤ greatest p bits base ∧ greatest p bits base < base + 2 ^ bits ∧
      ∀ n, base < n → n < base + 2 ^ bits → (p n = true ↔ n ≤ greatest p bits base) := by
  induction bits generalizing base with
  | zero => simp only [greatest]; exact ⟨le_rfl, by omega, by omega⟩
  | succ k ih =>
    have hk : 0 < 2 ^ k := by positivity
    simp only [greatest]
    split_ifs with hc
    · obtain ⟨h1, h2, h3⟩ := ih (base + 2 ^ k)
      refine ⟨by omega, by omega, fun n hn hlt => ?_⟩
      rcases lt_or_ge (base + 2 ^ k) n with h | h
      · exact h3 n h (by omega)
      · exact ⟨fun _ => by omega, fun _ => hp n _ h hc⟩
    · obtain ⟨h1, h2, h3⟩ := ih base
      refine ⟨h1, by omega, fun n hn hlt => ?_⟩
      rcases lt_or_ge n (base + 2 ^ k) with h | h
      · exact h3 n hn h
      · exact ⟨fun hpn => absurd (hp _ n h hpn) hc, fun _ => by omega⟩

/-- A field of `bits` bits holds at most 2^bits − 1. -/
theorem fieldOf_lt (bits : Nat) (v : Surd) : (fieldOf bits v).value < 2 ^ bits := by
  have h : ∀ (p : Nat → Bool) (k base : Nat), greatest p k base < base + 2 ^ k := by
    intro p k
    induction k with
    | zero => intro base; simp [greatest]
    | succ k ih =>
      intro base
      have h1 := ih (base + 2 ^ k)
      have h2 := ih base
      simp only [greatest, pow_succ]
      split_ifs <;> omega
  have h0 := h (fun n => v.atLeast n) bits 0
  rwa [Nat.zero_add] at h0

end Sys2Proof.Machine
end

