-- ==== Sys2Proof/Laws/PerInstr.lean ====
section
/-! SUPPORT. Statements about every instruction as syntax, one lemma per constructor. -/

namespace Sys2Proof.Laws.EncodedCount

/-- The byte counts a write transfer of the instruction's row may have (spec/30_encoding R110). -/
def rowCount (c : Config) (i : Instr) (n : Nat) : Bool :=
  match i with
  | .bme280BusWrite _ => true
  | .bme280WriteEmpty => n == 0
  | .bme280Select _ => n == 1
  | .bme280WritePairs _ _ _ => decide (2 ≤ n)
  | .bme280BusRead _ => false
  | .sht4xMeasHp => n == 1
  | .sht4xMeasMp => n == 1
  | .sht4xMeasLp => n == 1
  | .sht4xMeasH200Long => n == 1
  | .sht4xMeasH200Short => n == 1
  | .sht4xMeasH110Long => n == 1
  | .sht4xMeasH110Short => n == 1
  | .sht4xMeasH20Long => n == 1
  | .sht4xMeasH20Short => n == 1
  | .sht4xReadSerial => n == 1
  | .sht4xSoftReset => n == 1
  | .sht31MeasHighCs => n == 2
  | .sht31MeasMedCs => n == 2
  | .sht31MeasLowCs => n == 2
  | .sht31MeasHigh => n == 2
  | .sht31MeasMed => n == 2
  | .sht31MeasLow => n == 2
  | .sht31ReadSerial => n == 2
  | .sht31ReadStatus => n == 2
  | .sht31ClearStatus => n == 2
  | .sht31SoftReset => n == 2
  | .sht31HeaterOn => n == 2
  | .sht31HeaterOff => n == 2
  | .shtBusWrite _ => true
  | .shtBusRead _ => false
  | .shtInvalidCount _ => n != c.need
  | .shtUnrecognized _ => n == c.need
  | .shtNop _ => n == c.need
  | .bme280SetT _ => false
  | .bme280SetH _ => false
  | .shtSetT _ => false
  | .shtSetH _ => false

/-- The write transfer a well-formed instruction encodes to has a byte count its row allows. -/
def Statement (i : Instr) : Prop :=
  ∀ c b, i.wellFormed c = true → encode c i = .busWrite b → rowCount c i b.length = true

theorem codeBytes_length {c : Config} {code : Word16} (h : c.codeFits code = true) :
    (codeBytes c code).length = c.need := by
  unfold Config.codeFits at h
  unfold codeBytes Config.need
  cases hf : c.family <;> simp_all

theorem bme280BusWrite (b : List Byte) : Statement (.bme280BusWrite b) := fun _ _ _ _ => rfl

theorem bme280WriteEmpty : Statement (.bme280WriteEmpty) := by
  intro c b hw he
  cases he
  simp [rowCount]

theorem bme280Select (a : Byte) : Statement (.bme280Select a) := by
  intro c b hw he
  cases he
  simp [rowCount]

theorem bme280WritePairs (a v : Byte) (rest : List Byte) : Statement (.bme280WritePairs a v rest) := by
  intro c b hw he
  cases he
  simp [rowCount]

theorem bme280BusRead (k : Option Nat) : Statement (.bme280BusRead k) := by
  intro c b hw he
  cases he

theorem sht4xMeasHp : Statement (.sht4xMeasHp) := by
  intro c b hw he
  cases he
  simp [rowCount]

theorem sht4xMeasMp : Statement (.sht4xMeasMp) := by
  intro c b hw he
  cases he
  simp [rowCount]

theorem sht4xMeasLp : Statement (.sht4xMeasLp) := by
  intro c b hw he
  cases he
  simp [rowCount]

theorem sht4xMeasH200Long : Statement (.sht4xMeasH200Long) := by
  intro c b hw he
  cases he
  simp [rowCount]

theorem sht4xMeasH200Short : Statement (.sht4xMeasH200Short) := by
  intro c b hw he
  cases he
  simp [rowCount]

theorem sht4xMeasH110Long : Statement (.sht4xMeasH110Long) := by
  intro c b hw he
  cases he
  simp [rowCount]

theorem sht4xMeasH110Short : Statement (.sht4xMeasH110Short) := by
  intro c b hw he
  cases he
  simp [rowCount]

theorem sht4xMeasH20Long : Statement (.sht4xMeasH20Long) := by
  intro c b hw he
  cases he
  simp [rowCount]

theorem sht4xMeasH20Short : Statement (.sht4xMeasH20Short) := by
  intro c b hw he
  cases he
  simp [rowCount]

theorem sht4xReadSerial : Statement (.sht4xReadSerial) := by
  intro c b hw he
  cases he
  simp [rowCount]

theorem sht4xSoftReset : Statement (.sht4xSoftReset) := by
  intro c b hw he
  cases he
  simp [rowCount]

theorem sht31MeasHighCs : Statement (.sht31MeasHighCs) := by
  intro c b hw he
  cases he
  simp [rowCount]

theorem sht31MeasMedCs : Statement (.sht31MeasMedCs) := by
  intro c b hw he
  cases he
  simp [rowCount]

theorem sht31MeasLowCs : Statement (.sht31MeasLowCs) := by
  intro c b hw he
  cases he
  simp [rowCount]

theorem sht31MeasHigh : Statement (.sht31MeasHigh) := by
  intro c b hw he
  cases he
  simp [rowCount]

theorem sht31MeasMed : Statement (.sht31MeasMed) := by
  intro c b hw he
  cases he
  simp [rowCount]

theorem sht31MeasLow : Statement (.sht31MeasLow) := by
  intro c b hw he
  cases he
  simp [rowCount]

theorem sht31ReadSerial : Statement (.sht31ReadSerial) := by
  intro c b hw he
  cases he
  simp [rowCount]

theorem sht31ReadStatus : Statement (.sht31ReadStatus) := by
  intro c b hw he
  cases he
  simp [rowCount]

theorem sht31ClearStatus : Statement (.sht31ClearStatus) := by
  intro c b hw he
  cases he
  simp [rowCount]

theorem sht31SoftReset : Statement (.sht31SoftReset) := by
  intro c b hw he
  cases he
  simp [rowCount]

theorem sht31HeaterOn : Statement (.sht31HeaterOn) := by
  intro c b hw he
  cases he
  simp [rowCount]

theorem sht31HeaterOff : Statement (.sht31HeaterOff) := by
  intro c b hw he
  cases he
  simp [rowCount]

theorem shtBusWrite (b : List Byte) : Statement (.shtBusWrite b) := fun _ _ _ _ => rfl

theorem shtBusRead (k : Option Nat) : Statement (.shtBusRead k) := by
  intro c b hw he
  cases he

theorem shtInvalidCount (b : List Byte) : Statement (.shtInvalidCount b) := by
  intro c b' hw he
  cases he
  simpa [Instr.wellFormed, rowCount] using And.right (by simpa [Instr.wellFormed] using hw)

theorem shtUnrecognized (code : Word16) : Statement (.shtUnrecognized code) := by
  intro c b hw he
  cases he
  have hf : c.codeFits code = true := And.left (by simpa [Instr.wellFormed] using hw)
  simp [rowCount, codeBytes_length hf]

theorem shtNop (code : Word16) : Statement (.shtNop code) := by
  intro c b hw he
  cases he
  have hf : c.codeFits code = true := And.left (by simpa [Instr.wellFormed] using hw)
  simp [rowCount, codeBytes_length hf]

theorem bme280SetT (v : HostValue) : Statement (.bme280SetT v) := by
  intro c b hw he
  cases he

theorem bme280SetH (v : HostValue) : Statement (.bme280SetH v) := by
  intro c b hw he
  cases he

theorem shtSetT (v : HostValue) : Statement (.shtSetT v) := by
  intro c b hw he
  cases he

theorem shtSetH (v : HostValue) : Statement (.shtSetH v) := by
  intro c b hw he
  cases he

end Sys2Proof.Laws.EncodedCount
end

