-- ==== Sys2Proof/Tests/Slice0.lean ====
section
/-! SUPPORT. Tests on the spec's fixtures (spec/95_test_vectors) and a witness for the hypotheses of each statement. Expected
values are the spec's. -/

namespace Sys2Proof.Tests

open Sys2Proof.Machine

-- One test at a time: in parallel, each kernel evaluation holds a thread of its own.
set_option Elab.async false

/-! ### Fixtures (95_test_vectors section 0) -/

/-- CAL-A. -/
def calA : CalImage where
  words := #v[0x45#8, 0x6F#8, 0x6F#8, 0x68#8, 0x32#8, 0x00#8, 0x7D#8, 0x8E#8, 0x43#8, 0xD6#8, 0xD0#8, 0x0B#8,
    0x27#8, 0x0B#8, 0x8C#8, 0x00#8, 0xF9#8, 0xFF#8, 0x8C#8, 0x3C#8, 0xF8#8, 0xC6#8, 0x70#8, 0x17#8]
  h1 := 0x4B#8
  packed := #v[0x6A#8, 0x01#8, 0x00#8, 0x13#8, 0x29#8, 0x03#8, 0x1E#8]

/-- A configuration with every OPEN parameter of the fixtures. -/
def fixture (f : Family) : Config :=
  { Config.shipped f with cal := calA, pressAdc := 0x65A00#20, serialW0 := 0x1234#16, serialW1 := 0x5678#16 }

/-- BME-BOOT. -/
def bme : State := State.powerOn (fixture .bme280)

/-- BME-BOOT with these cells in the register file. -/
def bmeWith (m : List Host.Cell) : State := { bme with x := m }

/-- The data bytes that `SET_T 25.0` and `SET_H 50.0` leave. -/
def bmeData : List Host.Cell := [(0xFA, 0x82#8), (0xFB, 0x6A#8), (0xFC, 0xF0#8), (0xFD, 0x71#8), (0xFE, 0xAD#8)]

/-- SHT-BOOT after `SET_T 25.0` and `SET_H 50.0`, with this command latched. -/
def sht (f : Family) (cmd : Word16) : State :=
  { State.powerOn (fixture f) with
    tRaw := 0x6666#16, hRaw := if f = .sht31 then 0x7FFF#16 else 0x72AF#16, cmd := cmd }

/-- The next state of an outcome. -/
def nextOf : Host.Outcome State Fault Refusal → Option State
  | .next t => some t
  | .fault _ => none
  | .refused _ => none

/-- The value of `f` in the next state. -/
def see {α : Type} (o : Host.Outcome State Fault Refusal) (f : State → α) : Option α := (nextOf o).map f

theorem next_of_any {o : Host.Outcome State Fault Refusal} {p : State → Bool} (h : (nextOf o).any p = true) :
    ∃ t, o = .next t ∧ p t = true := by
  cases o with
  | next t => exact ⟨t, rfl, h⟩
  | fault r => exact nomatch r
  | refused r => cases h

theorem completes {o : Host.Outcome State Fault Refusal} (h : (nextOf o).isSome = true) : ∃ t, o = .next t := by
  cases o with
  | next t => exact ⟨t, rfl⟩
  | fault r => exact nomatch r
  | refused r => cases h

/-! ### Well-formedness: a term each check refuses -/

theorem test_wellFormed_refuses_family :
    (Instr.bme280Select 0#8).wellFormed (fixture .sht31) = false ∧
    Instr.sht4xMeasHp.wellFormed (fixture .sht31) = false ∧
    (Instr.shtBusRead none).wellFormed (fixture .bme280) = false ∧
    (Instr.bme280SetT (.finite (.rat 0))).wellFormed (fixture .sht4x) = false := by decide +kernel

theorem test_wellFormed_refuses_count : (Instr.shtInvalidCount [0xFD#8]).wellFormed (fixture .sht4x) = false := by
  decide +kernel

theorem test_wellFormed_refuses_table :
    (Instr.shtUnrecognized 0x2C06#16).wellFormed (fixture .sht31) = false ∧
    (Instr.shtNop 0x2C06#16).wellFormed (fixture .sht31) = false ∧
    (Instr.shtUnrecognized 0x0142#16).wellFormed (fixture .sht4x) = false ∧
    Instr.sht4xMeasHp.wellFormed { fixture .sht4x with sht4x := ⟨[], .rat 6, .rat 125⟩ } = false := by decide +kernel

theorem test_wellFormed_refuses_nonFinite :
    (Instr.shtSetT .nan).wellFormed (fixture .sht4x) = false ∧
    (Instr.bme280SetH .negInf).wellFormed (fixture .bme280) = false := by decide +kernel

theorem test_config_refuses :
    { fixture .sht4x with sht4x := ⟨[(0x0000#16, .measure)], .rat 6, .rat 125⟩ }.wellFormed = false ∧
    { fixture .sht4x with sht4x := ⟨[(0x01#16, .heaterOn)], .rat 6, .rat 125⟩ }.wellFormed = false ∧
    { fixture .sht31 with sht31 := ⟨[(0x01#16, .measure), (0x01#16, .nop)], .rat 0, .rat 100⟩ }.wellFormed = false ∧
    { fixture .sht31 with sht31 := ⟨[], .rat 0, .rat 0⟩ }.wellFormed = false := by decide +kernel

/-! ### Decoding: words written out from 30_encoding R110 to R117, R124 -/

theorem test_decode_bme280 :
    decode (fixture .bme280) (.busWrite []) = .bme280WriteEmpty ∧
    decode (fixture .bme280) (.busWrite [0xFA#8]) = .bme280Select 0xFA#8 ∧
    decode (fixture .bme280) (.busWrite [0x10#8, 0xAA#8, 0x11#8]) = .bme280WritePairs 0x10#8 0xAA#8 [0x11#8] ∧
    decode (fixture .bme280) (.busRead (some 5)) = .bme280BusRead (some 5) ∧
    decode (fixture .bme280) (.setT (.finite (.rat 25))) = .bme280SetT (.finite (.rat 25)) ∧
    decode (fixture .bme280) (.setH .nan) = .bme280SetH .nan := by decide +kernel

theorem test_decode_sht4x :
    ([0xFD#8, 0xF6#8, 0xE0#8, 0x39#8, 0x32#8, 0x2F#8, 0x24#8, 0x1E#8, 0x15#8, 0x89#8, 0x94#8, 0x42#8].map
      fun b => decode (fixture .sht4x) (.busWrite [b])) =
    [.sht4xMeasHp, .sht4xMeasMp, .sht4xMeasLp, .sht4xMeasH200Long, .sht4xMeasH200Short, .sht4xMeasH110Long,
      .sht4xMeasH110Short, .sht4xMeasH20Long, .sht4xMeasH20Short, .sht4xReadSerial, .sht4xSoftReset,
      .shtUnrecognized 0x0042#16] := by decide +kernel

theorem test_decode_sht31 :
    ([[0x2C#8, 0x06#8], [0x2C#8, 0x0D#8], [0x2C#8, 0x10#8], [0x24#8, 0x00#8], [0x24#8, 0x0B#8], [0x24#8, 0x16#8],
      [0x37#8, 0x80#8], [0xF3#8, 0x2D#8], [0x30#8, 0x41#8], [0x30#8, 0xA2#8], [0x30#8, 0x6D#8], [0x30#8, 0x66#8],
      [0x36#8, 0x82#8]].map fun b => decode (fixture .sht31) (.busWrite b)) =
    [.sht31MeasHighCs, .sht31MeasMedCs, .sht31MeasLowCs, .sht31MeasHigh, .sht31MeasMed, .sht31MeasLow,
      .sht31ReadSerial, .sht31ReadStatus, .sht31ClearStatus, .sht31SoftReset, .sht31HeaterOn, .sht31HeaterOff,
      .shtUnrecognized 0x3682#16] := by decide +kernel

theorem test_decode_sensirion_shared :
    decode (fixture .sht4x) (.busWrite [0xFD#8, 0x00#8]) = .shtInvalidCount [0xFD#8, 0x00#8] ∧
    decode (fixture .sht31) (.busWrite []) = .shtInvalidCount [] ∧
    decode (fixture .sht31) (.busRead none) = .shtBusRead none ∧
    decode (fixture .sht31) (.setT (.finite (.rat 1))) = .shtSetT (.finite (.rat 1)) ∧
    decode (fixture .sht4x) (.setH (.finite (.rat 1))) = .shtSetH (.finite (.rat 1)) := by decide +kernel

/-- A supplied table: a NOP code, and a code of its own kind (log 21). -/
theorem test_decode_supplied_table :
    decode { fixture .sht31 with sht31 := ⟨[(0x1234#16, .nop), (0x3682#16, .readSerial)], .rat 0, .rat 100⟩ }
      (.busWrite [0x12#8, 0x34#8]) = .shtNop 0x1234#16 ∧
    decode { fixture .sht31 with sht31 := ⟨[(0x1234#16, .nop), (0x3682#16, .readSerial)], .rat 0, .rat 100⟩ }
      (.busWrite [0x36#8, 0x82#8]) = .shtBusWrite [0x36#8, 0x82#8] := by decide +kernel

/-! ### Words of the opcode table, as the first instruction after reset -/

theorem test_table_words :
    decodeTableWord 8 0xFD = some .sht4xMeasHp ∧ decodeTableWord 8 0x15 = some .sht4xMeasH20Short ∧
    decodeTableWord 16 0x2C06 = some .sht31MeasHighCs ∧ decodeTableWord 16 0xF32D = some .sht31ReadStatus ∧
    decodeTableWord 8 0xD0 = some (.bme280Select 0xD0#8) ∧ decodeTableWord 0 0 = some .bme280WriteEmpty := by
  decide +kernel

theorem test_fetch_word :
    see (step (State.reset.withFetchWord 16 0x306D)) (fun t => (t.cmd, t.status)) = some (0x306D#16, 0xA008#16) ∧
    see (step (State.reset.withFetchWord 8 0xE0)) (fun t => (t.cmd, t.input)) = some (0x00E0#16, []) ∧
    see (step (State.reset.withFetchWord 8 0xD0)) (fun t => (t.ca, t.ps)) = some (0xD0#8, .addressLatched) := by
  decide +kernel

/-! ### BME280 bus (95_test_vectors 2.5) -/

theorem test_bme_busWrite :
    see (exec (.bme280BusWrite [0x10#8, 0xAA#8, 0x11#8, 0xBB#8, 0x20#8]) bme)
      (fun t => (t.readByte 0x10, t.readByte 0x11, t.ca)) = some (0xAA#8, 0xBB#8, 0x20#8) := by decide +kernel

theorem test_bme_writeEmpty : see (exec .bme280WriteEmpty bme) (fun t => (t.ca, t.ps)) = some (0#8, .idle) := by
  decide +kernel

theorem test_bme_select : see (exec (.bme280Select 0xFA#8) bme) (fun t => (t.ca, t.ps)) = some (0xFA#8, .addressLatched) := by
  decide +kernel

/-- The later pair wins (R255). -/
theorem test_bme_writePairs_same_address :
    see (exec (.bme280WritePairs 0x40#8 1#8 [0x40#8, 2#8]) bme) (fun t => (t.readByte 0x40, t.ca)) =
      some (2#8, 0x40#8) := by decide +kernel

/-- Writing the reset byte back lists no cell (canonical form). -/
theorem test_bme_writePairs_canonical :
    see (exec (.bme280WritePairs 0xD0#8 0x60#8 [0x88#8, 0x00#8]) (bmeWith [(0xD0, 0x58#8)])) (fun t => t.x) =
      some [(0x88, 0x00#8)] := by decide +kernel

theorem test_bme_busRead :
    see (exec (.bme280BusRead (some 5)) { bmeWith bmeData with ca := 0xFA#8 }) (fun t => (t.offered, t.received, t.ca)) =
      some ([0x82#8, 0x6A#8, 0xF0#8, 0x71#8, 0xAD#8, 0x00#8],
        [some 0x82#8, some 0x6A#8, some 0xF0#8, some 0x71#8, some 0xAD#8], 0xFA#8) := by decide +kernel

theorem test_bme_busRead_whole : see (exec (.bme280BusRead none) bme) (fun t => t.offered.length) = some 256 := by
  decide +kernel

/-- With every offered byte clocked, those are received. -/
theorem test_bme_busRead_all_received :
    see (exec (.bme280BusRead none) { bme with ca := 0xFE#8 }) (fun t => t.received) = some [some 0#8, some 0#8] := by
  decide +kernel

/-! ### BME280 codec (95_test_vectors 0, 2.3, 2.4) -/

theorem test_calibration_fields :
    (bme.calT1, bme.calT2, bme.calT3) = (28485, 26735, 50) ∧ bme.calP1 = 36477 ∧
    ([1, 2, 3, 4, 5, 6, 7, 8].map bme.calP) = [-10685, 3024, 2855, 140, -7, 15500, -14600, 6000] ∧
    (bme.calH1, bme.calH2, bme.calH3, bme.calH4, bme.calH5, bme.calH6) = (75, 362, 0, 313, 50, 30) := by decide +kernel

theorem test_tFine :
    bme.tFine = -743094 ∧ (bmeWith bmeData).tFine = 127987 ∧ tFineOf 0 65535 32767 32767 = -33 ∧
    tFineOf 0xFFFFF 0 32767 32767 = 4194096 ∧ asr (-5) 1 = -3 ∧ asr (-1) 4 = -1 := by decide +kernel

theorem test_reference_decode : tempDecodeCenti (bmeWith bmeData).tFine = 2500 ∧ (bmeWith bmeData).adcH = 0x71AD := by
  decide +kernel

/-- SOLVE on rationals lies between `lo` and `hi`. -/
def solveWithin (a b c : Rat) (choice : RootChoice) (lo hi : Rat) : Bool :=
  (solve (.ofRat a) (.ofRat b) (.ofRat c) choice).atLeast lo && (solve (.ofRat a) (.ofRat b) (.ofRat c) choice).atMost hi

theorem test_solver :
    solveWithin 1 (-3) 2 .max 2 2 ∧ solveWithin 1 (-3) 2 .min 1 1 ∧ solveWithin (-1) 3 (-2) .max 2 2 ∧
    solveWithin 1 2 1 .max (-1) (-1) ∧ solveWithin 1 0 1 .min 0 0 ∧ solveWithin (-1) 0 4 .min (-2) (-2) ∧
    solveWithin 0 2 (-4) .max 2 2 ∧ solveWithin 0 0 5 .min 0 0 := by decide +kernel

/-- √2 lies between 1.41421 and 1.41422, and −√2 between their opposites. -/
theorem test_solver_irrational :
    solveWithin 1 0 (-2) .max (141421 / 100000) (141422 / 100000) ∧
    solveWithin 1 0 (-2) .min (-141422 / 100000) (-141421 / 100000) ∧
    (fieldOf 16 (solve (.ofRat 1) (.ofRat 0) (.ofRat (-10)) .max)) = ⟨3, false⟩ := by decide +kernel

theorem test_bme_setT :
    see (exec (.bme280SetT (.finite (.rat 25))) bme) (fun t => (t.memRead 0xFA 3, t.notes)) = some ([0x82#8, 0x6A#8, 0xF0#8], []) ∧
    see (exec (.bme280SetT (.finite (.rat 0))) bme) (fun t => t.adcT) = some 455760 := by decide +kernel

/-- Out of range: the clamp, and the vertex (R183, R333). -/
theorem test_bme_setT_range :
    see (exec (.bme280SetT (.finite (.rat 200))) bme) (fun t => (t.adcT, t.notes)) = some (0xFFFFF, [.clamped]) ∧
    see (exec (.bme280SetT (.finite (.rat (-50000)))) bme) (fun t => (t.adcT, t.notes)) =
      some (0, [.degenerate, .clamped]) := by decide +kernel

theorem test_bme_setH :
    see (exec (.bme280SetH (.finite (.rat 50))) (bmeWith bmeData)) (fun t => t.memRead 0xFD 2) = some [0x71#8, 0xAD#8] ∧
    see (exec (.bme280SetH (.finite (.rat 50))) bme) (fun t => t.memRead 0xFD 2) = some [0x7C#8, 0xB2#8] := by decide +kernel

/-- An argument that is not given as a rational runs on every family (R14). -/
theorem test_real_argument :
    (nextOf (exec (.bme280SetT (.finite (.real 0))) bme)).isSome ∧
    (nextOf (exec (.bme280SetH (.finite (.real 1))) bme)).isSome ∧
    (nextOf (exec (.shtSetT (.finite (.real 2))) (sht .sht4x 0#16))).isSome ∧
    (nextOf (exec (.shtSetH (.finite (.real 3))) (sht .sht31 0#16))).isSome := by decide +kernel

/-- H2 = 0 gives c4 = 0: nothing is written (R186). -/
theorem test_bme_setH_c4_zero :
    see (exec (.bme280SetH (.finite (.rat 150))) (bmeWith [(0xE1, 0#8), (0xE2, 0#8)])) (fun t => (t.memRead 0xFD 2, t.notes)) =
      some ([0#8, 0#8], [.clamped, .degenerate]) := by decide +kernel

/-! ### CRC-8 and Sensirion (95_test_vectors 2.1, 2.6, 2.7) -/

theorem test_crc : ([[0xBE#8, 0xEF#8], [0x66#8, 0x66#8], [], [0x31#8]].map crc8) = [0x92#8, 0x93#8, 0xFF#8, 0x58#8] := by
  decide +kernel

theorem test_sht4x_measure :
    see (exec .sht4xMeasHp (sht .sht4x 0#16)) (fun t => (t.cmd, t.notes)) = some (0x00FD#16, []) := by decide +kernel

theorem test_sht_busWrite :
    see (exec (.shtBusWrite [0x30#8, 0x41#8]) (sht .sht31 0#16)) (fun t => (t.cmd, t.status)) =
      some (0x3041#16, 0x0000#16) ∧
    see (exec (.shtBusWrite [0x42#8]) (sht .sht4x 0#16)) (fun t => (t.cmd, t.notes)) =
      some (0x0042#16, [.unknownCommand]) := by decide +kernel

theorem test_sht_busRead_measure :
    see (exec (.shtBusRead none) (sht .sht4x 0x00FD#16)) (fun t => (t.offered, t.cmd)) =
      some ([0x66#8, 0x66#8, 0x93#8, 0x72#8, 0xAF#8, 0xB1#8], 0x0000#16) ∧
    see (exec (.shtBusRead none) (sht .sht31 0x2C06#16)) (fun t => t.offered) =
      some [0x66#8, 0x66#8, 0x93#8, 0x7F#8, 0xFF#8, 0x8F#8] := by decide +kernel

theorem test_sht_busRead_serial_status :
    see (exec (.shtBusRead none) (sht .sht31 0x3780#16)) (fun t => t.offered) =
      some [0x12#8, 0x34#8, 0x37#8, 0x56#8, 0x78#8, 0x7D#8] ∧
    see (exec (.shtBusRead none) (sht .sht31 0xF32D#16)) (fun t => t.offered) = some [0x80#8, 0x08#8, 0x1B#8] ∧
    see (exec (.shtBusRead none) (sht .sht31 0x306D#16)) (fun t => t.offered) = some [] := by decide +kernel

theorem test_sht31_softReset :
    see (exec .sht31SoftReset { sht .sht31 0#16 with status := 0x2000#16 }) (fun t => t.status) = some 0x8008#16 := by
  decide +kernel

theorem test_sht31_heater :
    see (exec .sht31HeaterOn (sht .sht31 0#16)) (fun t => (t.status, heaterBits t.cfg t.status)) =
      some (0xA008#16, 0x2000#16) ∧
    see (exec .sht31HeaterOff { sht .sht31 0#16 with status := 0xA008#16 })
      (fun t => (t.status, alertPending t.status, resetPending t.status)) = some (0x8008#16, true, true) := by
  decide +kernel

theorem test_sht_invalidCount :
    see (exec (.shtInvalidCount [0xFD#8, 0#8]) (sht .sht4x 0x00FD#16)) (fun t => (t.cmd, t.notes)) =
      some (0x0000#16, [.badCount]) := by decide +kernel

theorem test_sht_setT :
    see (exec (.shtSetT (.finite (.rat 25))) (sht .sht4x 0#16)) (fun t => t.tRaw) = some 0x6666#16 ∧
    see (exec (.shtSetT (.finite (.rat 130))) (sht .sht31 0#16)) (fun t => (t.tRaw, t.notes)) = some (0xFFFF#16, []) := by
  decide +kernel

theorem test_sht_setH :
    see (exec (.shtSetH (.finite (.rat 50))) (sht .sht4x 0#16)) (fun t => t.hRaw) = some 0x72AF#16 ∧
    see (exec (.shtSetH (.finite (.rat 150))) (sht .sht31 0#16)) (fun t => (t.hRaw, t.notes)) =
      some (0xFFFF#16, [.clamped]) := by decide +kernel

theorem test_nonFinite_refused : nextOf (exec (.shtSetH .posInf) (sht .sht31 0#16)) = none := by decide +kernel

/-! ### The platform and R127's sequences -/

theorem test_platform_address :
    deliver (fixture .bme280) ⟨0x76#7, false, [0xD0#8], none⟩ = some (.busWrite [0xD0#8]) ∧
    deliver (fixture .bme280) ⟨0x44#7, false, [0xD0#8], none⟩ = none ∧
    deliver { fixture .sht31 with maxRx := some 1 } ⟨0x44#7, false, [0x2C#8, 0x06#8], none⟩ = some (.busWrite [0x2C#8]) := by
  decide +kernel

theorem test_pokes : pokes 0x10#8 [0xAA#8, 0xBB#8] = [.busWrite [0x10#8, 0xAA#8, 0x11#8, 0xBB#8]] := by decide +kernel

/-- The buffer keeps the first bytes. -/
theorem test_platform_buffer :
    deliver { fixture .bme280 with maxRx := some 2 } ⟨0x76#7, false, [0x10#8, 0xAA#8, 0x11#8], none⟩ =
      some (.busWrite [0x10#8, 0xAA#8]) := by decide +kernel

/-! ### Witnesses: the hypotheses of each statement hold together somewhere -/

theorem ready_bme (m : List Host.Cell) : Ready isBme280 (bmeWith m) := ⟨rfl, rfl⟩

theorem ready_sht4x (cmd : Word16) : Ready isSht4x (sht .sht4x cmd) :=
  ⟨(by decide +kernel : (fixture .sht4x).wellFormed = true), rfl⟩

theorem ready_sht31 (cmd : Word16) : Ready isSht31 (sht .sht31 cmd) :=
  ⟨(by decide +kernel : (fixture .sht31).wellFormed = true), rfl⟩

theorem ready_sensirion (cmd : Word16) :
    Ready Family.isSensirion (sht .sht4x cmd) ∧ Ready Family.isSensirion (sht .sht31 cmd) :=
  ⟨⟨(ready_sht4x cmd).config, rfl⟩, ⟨(ready_sht31 cmd).config, rfl⟩⟩

theorem witness_DecodeOfEncode :
    Instr.sht31ReadStatus.wellFormed (fixture .sht31) = true ∧ Instr.sht31ReadStatus.isGeneralRow = false ∧
    (Instr.bme280WritePairs 0xFF#8 0x00#8 []).wellFormed (fixture .bme280) = true ∧
    (Instr.shtUnrecognized 0x00FF#16).wellFormed (fixture .sht4x) = true := by decide +kernel

theorem witness_DecodeIsWellFormed : (Input.event (.setT (.finite (.rat 25)))).accepted = true := rfl

theorem witness_StepRunsDecodedEvent :
    { bme with input := [.event (.busRead none), .powerCycle] }.input = .event (.busRead none) :: [Input.powerCycle] ∧
    { bme with input := [.powerCycle] }.input = .powerCycle :: [] ∧ bme.input = [] := ⟨rfl, rfl, rfl⟩

theorem witness_StepKeepsInv :
    Inv { bme with input := [.event (.busWrite [0x10#8, 0xAA#8])] } ∧
    ∃ t, step { bme with input := [.event (.busWrite [0x10#8, 0xAA#8])] } = .next t :=
  ⟨⟨by decide +kernel, fun _ => rfl, by decide +kernel, rfl, fun h => nomatch h⟩,
    (next_of_any (p := fun _ => true) (by decide +kernel)).imp fun _ h => h.1⟩

theorem witness_EveryRunCompletes :
    { bme with input := [.event (.setT (.finite (.rat 25))), .powerCycle] }.cfg.wellFormed = true ∧
    ∀ i ∈ { bme with input := [.event (.setT (.finite (.rat 25))), .powerCycle] }.input, i.accepted = true := by decide +kernel

theorem witness_NoOutputPersists : { bme with input := [.event (.busRead none)] }.input ≠ [] := by simp

theorem witness_AccessRights :
    (∃ t, exec (.shtSetT (.finite (.rat 25))) (State.powerOn (fixture .sht31)) = .next t ∧
      (t.tRaw != (State.powerOn (fixture .sht31)).tRaw) = true) ∧
    ∃ t, exec (.bme280SetH (.finite (.rat 50))) bme = .next t ∧ (t.readByte 0xFE != bme.readByte 0xFE) = true :=
  ⟨next_of_any (by decide +kernel), next_of_any (by decide +kernel)⟩

theorem witness_BadConfigurationRefused :
    { fixture .sht4x with sht4x := ⟨[(0x0000#16, .measure)], .rat 6, .rat 125⟩ }.family.isSensirion = true ∧
    ((0x0000#16, Kind.measure) : Word16 × Kind) ∈
      ({ fixture .sht4x with sht4x := ⟨[(0x0000#16, .measure)], .rat 6, .rat 125⟩ } : Config).params.cmdTable ∧
    ((0x01#16, Kind.heaterOn) : Word16 × Kind) ∈
      ({ fixture .sht4x with sht4x := ⟨[(0x01#16, .heaterOn)], .rat 6, .rat 125⟩ } : Config).params.cmdTable ∧
    ({ fixture .sht31 with sht31 := ⟨[(0x01#16, .measure), (0x01#16, .nop)], .rat 0, .rat 0⟩ } : Config).params.cmdTable =
      [(0x01#16, .measure), (0x01#16, .nop)] ∧
    ({ fixture .sht31 with sht31 := ⟨[(0x01#16, .measure), (0x01#16, .nop)], .rat 0, .rat 0⟩ } : Config).params.humSpan =
      .rat 0 ∧ (Number.rat 0).value ≤ 0 :=
  ⟨by decide +kernel, by decide +kernel, by decide +kernel, by decide +kernel, by decide +kernel, by simp⟩

theorem witness_NonFiniteRefused : HostValue.nan.isFinite = false ∧ HostValue.posInf.isFinite = false := ⟨rfl, rfl⟩

/-- For BmeBusWriteStoresPairs, BmeWritePairsStoresPairs, BmePokeThenPeek, BmeSetTStoresCompensation,
BmeSetHStoresCompensation and, without `memWf`, BmeWriteEmptyChangesNothing, BmeSelectSetsAddress, BmeGeneralWriteAgrees
and BmeBusReadOffersWindow. -/
theorem witness_bme_ready : Ready isBme280 (bmeWith bmeData) ∧ (bmeWith bmeData).memWf := ⟨ready_bme _, by decide +kernel⟩

/-- The two cases of BmeSetHStoresCompensation. -/
theorem witness_bme_setH_cases :
    (bmeWith bmeData).calH2 = 362 ∧ (bmeWith bmeData).humTerms.c4 ≠ 0 ∧
    (bmeWith [(0xE1, 0#8), (0xE2, 0#8)]).calH2 = 0 ∧ (bmeWith [(0xE1, 0#8), (0xE2, 0#8)]).humTerms.c4 = 0 := by
  decide +kernel

theorem witness_ClockedBytesArePrefix :
    (∃ t, exec (.bme280BusRead (some 3)) { bme with ca := 0xFF#8 } = .next t ∧ (t.offered.length == 1) = true) ∧
    ∃ t, exec (.shtBusRead (some 2)) (sht .sht4x 0x00FD#16) = .next t ∧ (t.offered.length == 6) = true :=
  ⟨next_of_any (by decide +kernel), next_of_any (by decide +kernel)⟩

/-- √2 / 3. -/
theorem witness_FieldOfSurdExact :
    0 ≤ (Surd.mk (.ofRat 0) 1 (.ofRat 2) (.ofRat 3)).d.value ∧ 0 < (Surd.mk (.ofRat 0) 1 (.ofRat 2) (.ofRat 3)).w.value := by
  simp

theorem witness_SolverScaleInvariant : (RealTerm.ofRat (-1)).value ≠ 0 := by simp

theorem witness_HumidityClampedAlike :
    100 < (Number.rat 150).value ∧ (Number.rat (-10)).value < 0 ∧
    (∃ t, exec (.bme280SetH (.finite (.rat 150))) bme = .next t) ∧
    ∃ t, exec (.shtSetH (.finite (.rat (-10)))) (sht .sht31 0#16) = .next t :=
  ⟨by norm_num, by norm_num, completes (by decide +kernel), completes (by decide +kernel)⟩

theorem witness_BmeHostCallNotes :
    (∃ t, exec (.bme280SetT (.finite (.rat 200))) bme = .next t) ∧ ∃ t, exec (.bme280SetH (.finite (.rat 150))) bme = .next t :=
  ⟨completes (by decide +kernel), completes (by decide +kernel)⟩

theorem witness_BmeTemperatureRoundTrip :
    bme.memWf ∧ bme.cfg.codecTolerance = 0 ∧ 0 < bme.calT3 ∧
    ∃ t, exec (.bme280SetT (.finite (.rat 25))) bme = .next t ∧ t.notes = [] ∧
      -Spec.tempB bme.calT1 bme.calT2 bme.calT3 / (2 * Spec.tempA bme.calT3) ≤ (t.adcT : ℝ) / 16384 := by
  refine ⟨by decide +kernel, rfl, by decide +kernel, ?_⟩
  obtain ⟨t, h, hp⟩ := next_of_any (o := exec (.bme280SetT (.finite (.rat 25))) bme)
    (p := fun t => decide (t.notes = [] ∧ t.adcT = 534191)) (by decide +kernel)
  obtain ⟨hn, ha⟩ := of_decide_eq_true hp
  have hc : bme.calT1 = 28485 ∧ bme.calT2 = 26735 ∧ bme.calT3 = 50 := by decide +kernel
  refine ⟨t, h, hn, ?_⟩
  rw [hc.1, hc.2.1, hc.2.2, ha]
  norm_num [Spec.tempA, Spec.tempB]

theorem witness_BmeHostCallsKeepOtherField :
    (∃ t, exec (.bme280SetT (.finite (.rat 25))) bme = .next t) ∧ ∃ t, exec (.bme280SetH (.finite (.rat 50))) bme = .next t :=
  ⟨completes (by decide +kernel), completes (by decide +kernel)⟩

theorem witness_CrcDetectsOneByte : hiByte 0xBEEF#16 = hiByte 0xBE00#16 ∧ loByte 0xBEEF#16 = loByte 0x00EF#16 ∧
    crcWord 0xBEEF#16 = crcWord 0xBEEF#16 := by decide +kernel

/-- For ShtGeneralWriteAgrees and the clauses of ShtBusWriteLatches: a wrong count, an unknown code, a code of the table,
in both families. -/
theorem witness_ShtBusWriteLatches :
    (Ready Family.isSensirion (sht .sht4x 0#16) ∧ Ready Family.isSensirion (sht .sht31 0#16)) ∧
    (sht .sht31 0#16).cfg.family = .sht31 ∧ (sht .sht31 0#16).cfg.kindOf 0x30A2#16 = some .softReset ∧
    ((0x30#8 : Byte).setWidth 16 <<< 8) ||| (0xA2#8 : Byte).setWidth 16 = 0x30A2#16 ∧
    (sht .sht4x 0#16).cfg.family = .sht4x ∧ (sht .sht4x 0#16).cfg.kindOf ((0x00#8 : Byte).setWidth 16) = none ∧
    (sht .sht4x 0#16).cfg.kindOf ((0xFD#8 : Byte).setWidth 16) = some .measure :=
  ⟨ready_sensirion _, by decide +kernel⟩

/-- The clauses of ShtBusReadReplies. -/
theorem witness_ShtBusReadReplies :
    Ready Family.isSensirion (sht .sht31 0x2C06#16) ∧
    (fixture .sht31).kindOf 0x2C06#16 = some .measure ∧ (fixture .sht31).kindOf 0x3780#16 = some .readSerial ∧
    (fixture .sht31).kindOf 0xF32D#16 = some .readStatus ∧
    (fixture .sht31).kindOf 0x306D#16 ∉ [some Kind.measure, some .readSerial, some .readStatus] :=
  ⟨(ready_sensirion _).2, by decide +kernel⟩

/-- For Sht4xMeasureCommands and Sht4xSerialAndSoftReset. -/
theorem witness_sht4x_commands :
    Ready isSht4x (sht .sht4x 0#16) ∧ (fixture .sht4x).kindOf 0x00FD#16 = some .measure ∧
    (fixture .sht4x).kindOf 0x0015#16 = some .measure ∧ (fixture .sht4x).kindOf 0x0089#16 = some .readSerial ∧
    (fixture .sht4x).kindOf 0x0094#16 = some .softReset :=
  ⟨ready_sht4x _, by decide +kernel⟩

/-- For Sht31MeasureCommands, Sht31SerialAndStatus and Sht31StatusCommands. -/
theorem witness_sht31_commands :
    Ready isSht31 (sht .sht31 0#16) ∧ (fixture .sht31).kindOf 0x2C06#16 = some .measure ∧
    (fixture .sht31).kindOf 0x3780#16 = some .readSerial ∧ (fixture .sht31).kindOf 0xF32D#16 = some .readStatus ∧
    (fixture .sht31).kindOf 0x3041#16 = some .clearStatus ∧ (fixture .sht31).kindOf 0x3066#16 = some .heaterOff ∧
    (∃ t, exec .sht31HeaterOn (sht .sht31 0#16) = .next t ∧ (nextOf (exec (.shtBusRead none) t)).isSome = true) :=
  ⟨ready_sht31 _, by decide +kernel, by decide +kernel, by decide +kernel, by decide +kernel, by decide +kernel,
    next_of_any (by decide +kernel)⟩

theorem witness_ShtWritesWithoutCommand :
    Ready Family.isSensirion (sht .sht4x 0#16) ∧ (Instr.shtUnrecognized 0x0042#16).wellFormed (fixture .sht4x) = true ∧
    (Instr.shtInvalidCount []).wellFormed (fixture .sht4x) = true ∧
    (Instr.shtNop 0x0042#16).wellFormed { fixture .sht4x with sht4x := ⟨[(0x0042#16, .nop)], .rat 6, .rat 125⟩ } = true :=
  ⟨(ready_sensirion _).1, by decide +kernel⟩

theorem witness_ShtSecondRead :
    ∃ t, exec (.shtBusRead none) { sht .sht4x 0x00FD#16 with cfg := { fixture .sht4x with consumeOnRead := false } } =
        .next t ∧ (nextOf (exec (.shtBusRead none) t)).isSome = true :=
  next_of_any (by decide +kernel)

/-- For ShtSetTStoresWord, ShtSetHStoresWord and ShtHostCallsCommute. -/
theorem witness_sht_ready : Ready Family.isSensirion (sht .sht31 0#16) := (ready_sensirion _).2

theorem witness_ShtTemperatureRoundTrip :
    (sht .sht31 0#16).cfg.codecTolerance = 0 ∧ -45 ≤ (Number.rat (-45)).value ∧ (Number.rat 130).value ≤ 130 ∧
    (∃ t, exec (.shtSetT (.finite (.rat (-45)))) (sht .sht31 0#16) = .next t) ∧
    ∃ t, exec (.shtSetT (.finite (.rat 130))) (sht .sht31 0#16) = .next t :=
  ⟨rfl, by norm_num, by norm_num, completes (by decide +kernel), completes (by decide +kernel)⟩

theorem witness_ShtHumidityRoundTrip :
    (sht .sht4x 0#16).cfg.codecTolerance = 0 ∧
    ∃ t, exec (.shtSetH (.finite (.rat 50))) (sht .sht4x 0#16) = .next t ∧ (t.notes == []) = true :=
  ⟨rfl, next_of_any (by decide +kernel)⟩

theorem witness_PowerCycleResets :
    { bmeWith bmeData with input := [.powerCycle] }.cfg.wellFormed = true ∧
    { bmeWith bmeData with input := [.powerCycle] }.input = .powerCycle :: [] := ⟨rfl, rfl⟩

theorem witness_PlatformDelivers :
    (Transfer.mk 0x44#7 false [] none).addr ≠ bme.cfg.busAddr ∧ (Transfer.mk 0x76#7 true [] none).addr = bme.cfg.busAddr ∧
    bme.cfg.maxRx = none ∧ { fixture .bme280 with maxRx := some 1 }.maxRx = some 1 ∧
    (Transfer.mk 0x76#7 false [0x10#8, 0xAA#8] none).addr = { fixture .bme280 with maxRx := some 1 }.busAddr := by
  decide +kernel

end Sys2Proof.Tests
end

/-! PROOFS. What a bus read leaves behind and what the controller clocks of it (spec/20_memory R86). -/

namespace Sys2Proof.Machine

/-- Clocking `k` bytes receives `k` items, however many bytes were offered. -/
@[simp] theorem clockOut_some_length (offered : List Byte) (k : Nat) (past : Nat → Option Byte) :
    (clockOut offered (some k) past).length = k := by
  simp only [clockOut_some, List.length_append, List.length_map, List.length_take, List.length_range]
  omega

/-- The items clocked before the end of the offered bytes are those bytes. -/
theorem clockOut_some_getElem? (offered : List Byte) (past : Nat → Option Byte) {k j : Nat}
    (h : j < min k offered.length) : (clockOut offered (some k) past)[j]? = (offered[j]?).map some := by
  have hj : j < ((offered.take k).map some).length := by simpa using h
  rw [clockOut_some, List.getElem?_append_left hj, List.getElem?_map, List.getElem?_take_of_lt (by omega)]

/-- `s` after a read that offers `reply`, leaves `CMD` at `cmd`, and of which the controller clocks `clocks`. -/
def State.afterRead (s : State) (reply : List Byte) (cmd : Word16) (clocks : Option Nat) : State :=
  { s.begin.emit reply clocks with cmd := cmd }

variable (s : State) (reply : List Byte) (cmd : Word16)

@[simp] theorem State.afterRead_offered (k : Option Nat) : (s.afterRead reply cmd k).offered = reply := rfl

@[simp] theorem State.afterRead_received (k : Option Nat) :
    (s.afterRead reply cmd k).received = clockOut reply k fun i => Config.overread (s.free + i) := rfl

/-- How many bytes are clocked shows only in what is received and in the platform's counter. -/
theorem State.afterRead_sameBlock (k k' : Option Nat) :
    SameBlock (s.afterRead reply cmd k) (s.afterRead reply cmd k') := rfl

theorem State.consume_eq : s.consume = { s with cmd := s.consume.cmd } := by
  unfold State.consume
  split <;> rfl

variable {s} {k : Option Nat} {t : State}

theorem exec_bme280BusRead (k : Option Nat) (s : State) :
    exec (.bme280BusRead k) s =
      onFamily isBme280 s fun s => s.emit (s.memRead s.ca.toNat (256 - s.ca.toNat)) k := rfl

theorem exec_shtBusRead (k : Option Nat) (s : State) :
    exec (.shtBusRead k) s = onFamily Family.isSensirion s fun s => (s.emit s.shtReply k).consume := rfl

/-- A BME280 read (R254) offers the bytes from `CA` to the end of the register file. -/
theorem bme280BusRead_next (h : exec (.bme280BusRead k) s = .next t) :
    t = s.afterRead (s.memRead s.ca.toNat (256 - s.ca.toNat)) s.cmd k := by
  rw [exec_bme280BusRead, onFamily_next] at h
  obtain ⟨-, -, rfl⟩ := h
  rfl

/-- A Sensirion read (R290, R297) offers the reply the latched command selects, then consumes the command. -/
theorem shtBusRead_next (h : exec (.shtBusRead k) s = .next t) :
    t = s.afterRead s.shtReply s.consume.cmd k := by
  rw [exec_shtBusRead, onFamily_next] at h
  obtain ⟨-, -, rfl⟩ := h
  rw [State.consume_eq, State.consume_cmd, State.consume_cmd]
  rfl

/-- What a read offers and what it leaves in `CMD` are fixed before the controller clocks any byte. -/
theorem busRead_next {read : Option Nat → Instr} (hread : read ∈ [Instr.bme280BusRead, Instr.shtBusRead]) (s : State) :
    ∃ reply cmd, ∀ k t, exec (read k) s = .next t → t = s.afterRead reply cmd k := by
  simp only [List.mem_cons, List.not_mem_nil, or_false] at hread
  obtain rfl | rfl := hread
  · exact ⟨_, _, fun _ _ => bme280BusRead_next⟩
  · exact ⟨_, _, fun _ _ => shtBusRead_next⟩

/-- Settles O21: every read of `s`, whatever is clocked, is `afterRead` of one reply; the rest is what `clockOut` does. -/
theorem clockedBytesArePrefix : Obligations.ClockedBytesArePrefix := by
  intro read hread s t k ht
  obtain ⟨reply, cmd, hnext⟩ := busRead_next hread s
  obtain rfl := hnext _ t ht
  refine ⟨by simp, fun j hj => ?clocked, fun u hu => ?whole, fun k' u hu => ?block⟩
  case clocked => exact clockOut_some_getElem? reply _ hj
  case whole =>
    obtain rfl := hnext _ u hu
    simp
  case block =>
    obtain rfl := hnext _ u hu
    exact ⟨s.afterRead_sameBlock reply cmd k' (some k), by simp⟩

end Sys2Proof.Machine

/-! PROOFS. Which configurations run events (spec/30_encoding R118, spec/43_sensirion_codec R222, R365). -/

namespace Sys2Proof

/-- R118 (c): a SHT4x table may use every kind but the four of SHT31's. -/
theorem Config.kindAllowed_sht4x {k : Kind} :
    Config.kindAllowed .sht4x k = true ↔ k ∉ [Kind.readStatus, .clearStatus, .heaterOn, .heaterOff] := by
  cases k <;> decide

/-- R118 (a), (b), (c) as statements about the table's entries. -/
theorem Config.tableWellFormed_iff {f : Family} {l : List (Word16 × Kind)} :
    Config.tableWellFormed f l = true ↔
      (∀ code k k', (code, k) ∈ l → (code, k') ∈ l → k = k') ∧ (∀ k, (0x0000#16, k) ∉ l) ∧
        ∀ code k, (code, k) ∈ l → Config.kindAllowed f k = true := by
  unfold Config.tableWellFormed
  simp only [Bool.and_eq_true, List.all_eq_true, Bool.or_eq_true, bne_iff_ne, beq_iff_eq, Prod.forall, and_assoc]
  refine and_congr ⟨fun h code k k' hk hk' => ?_, fun h code k hk code' k' hk' => ?_⟩
    (and_congr ⟨fun h k hk => h _ k hk rfl, fun h code k hk h0 => h k (h0 ▸ hk)⟩ Iff.rfl)
  · exact (h code k hk code k' hk').resolve_left fun hne => hne rfl
  · exact or_iff_not_imp_left.2 fun heq => h code k k' hk (not_not.1 heq ▸ hk')

/-- On a Sensirion instance the conditions are those of the instance's own table and span. -/
theorem Config.wellFormed_sensirion {c : Config} (hf : c.family.isSensirion = true) :
    c.wellFormed = true ↔
      Config.tableWellFormed c.family c.params.cmdTable = true ∧ 0 < c.params.humSpan.value := by
  cases h : c.family with
  | bme280 => simp [h, Family.isSensirion] at hf
  | sht31 => simp [Config.wellFormed, Config.params, h]
  | sht4x => simp [Config.wellFormed, Config.params, h]

namespace Machine

variable {i : Instr} {s t : State}

/-- Every instruction runs its body behind one of the two guards: an event's, or a host call's. -/
theorem exec_guarded (i : Instr) (s : State) :
    (∃ ok body, exec i s = onFamily ok s body) ∨ ∃ ok v body, exec i s = onHostCall ok v s body := by
  cases i with
  | bme280SetT | bme280SetH | shtSetT | shtSetH => exact .inr ⟨_, _, _, rfl⟩
  | _ =>
    dsimp only [exec]
    exact .inl ⟨_, _, rfl⟩

/-- R365 (1): only a well-formed configuration runs an instruction, whatever the instruction is. -/
theorem exec_next_wellFormed (h : exec i s = .next t) : s.cfg.wellFormed = true := by
  obtain ⟨ok, body, hexec⟩ | ⟨ok, v, body, hexec⟩ := exec_guarded i s
  · exact (onFamily_next.1 (hexec ▸ h)).1
  · obtain ⟨_, -, hc, -⟩ := onHostCall_next.1 (hexec ▸ h)
    exact hc

/-- Settles O13: a next state makes the configuration well formed, and each of the four defects contradicts one clause
of that. -/
theorem badConfigurationRefused : Obligations.BadConfigurationRefused := by
  refine ⟨rfl, fun i s t hf hbad hnext => ?_⟩
  obtain ⟨htable, hspan⟩ := (Config.wellFormed_sensirion hf).1 (exec_next_wellFormed hnext)
  obtain ⟨hone, hzero, hkinds⟩ := Config.tableWellFormed_iff.1 htable
  obtain ⟨k, hk⟩ | ⟨code, k, k', hk, hk', hne⟩ | ⟨h4x, code, k, hk, hforeign⟩ | hneg := hbad
  case inl => exact hzero k hk
  case inr.inl => exact hne (hone code k k' hk hk')
  case inr.inr.inl => exact Config.kindAllowed_sht4x.1 (h4x ▸ hkinds code k hk) hforeign
  case inr.inr.inr => exact hspan.not_ge hneg

end Machine
end Sys2Proof

/-! PROOFS. The exact solver against SOLVE over the real numbers (spec/40_quadratic_solver R150 to R154). -/

namespace Sys2Proof.Machine

/-- What a surd has to meet for `Spec.value` to be the number it is read as. -/
def Surd.WellFormed (v : Surd) : Prop := 0 ≤ v.d.value ∧ 0 < v.w.value

@[simp] theorem Surd.value_ofRat (r : Rat) : Spec.value (Surd.ofRat r) = (r : ℝ) := by
  simp [Spec.value, Surd.ofRat]

theorem Surd.ofRat_wellFormed (r : Rat) : (Surd.ofRat r).WellFormed := by
  simp [Surd.WellFormed, Surd.ofRat]

section Over

variable (p : RealTerm) (q : Rat) (d w : RealTerm)

/-- Normalising the sign of the denominator leaves the number as it is. -/
@[simp] theorem Surd.value_over :
    Spec.value (Surd.over p q d w) = (p.value + (q : ℝ) * √d.value) / w.value := by
  unfold Surd.over
  split_ifs with hw
  case pos => rfl
  case neg =>
    calc (p.neg.value + ((-q : Rat) : ℝ) * √d.value) / w.neg.value
        = -(p.value + (q : ℝ) * √d.value) / -w.value := by simp only [RealTerm.value_neg, Rat.cast_neg]; ring
      _ = (p.value + (q : ℝ) * √d.value) / w.value := neg_div_neg_eq _ _

variable {d w}

theorem Surd.over_wellFormed (hd : 0 ≤ d.value) (hw : w.value ≠ 0) : (Surd.over p q d w).WellFormed := by
  unfold Surd.over
  split_ifs with hpos
  case pos => exact ⟨hd, (RealTerm.isPos_iff w).1 hpos⟩
  case neg =>
    rw [RealTerm.isPos_iff, not_lt] at hpos
    exact ⟨hd, by simpa using lt_of_le_of_ne hpos hw⟩

end Over

/-- Surds that differ in the factor of the root only, as `pickRoot` takes them. -/
def Surd.Conjugate (v v' : Surd) : Prop := v.p = v'.p ∧ v.d = v'.d ∧ v.w = v'.w

theorem Surd.over_conjugate (p : RealTerm) (q q' : Rat) (d w : RealTerm) :
    (Surd.over p q d w).Conjugate (Surd.over p q' d w) := by
  unfold Surd.over
  split_ifs <;> exact ⟨rfl, rfl, rfl⟩

section PickRoot

variable {v v' : Surd} {choice : RootChoice}

theorem Surd.Conjugate.symm (h : v.Conjugate v') : v'.Conjugate v := by
  obtain ⟨hp, hd, hw⟩ := h
  exact ⟨hp.symm, hd.symm, hw.symm⟩

/-- Over a common positive denominator the factors of the root order the numbers. -/
theorem Surd.Conjugate.value_le (h : v.Conjugate v') (hv : v.WellFormed) (hq : v.q ≤ v'.q) :
    Spec.value v ≤ Spec.value v' := by
  obtain ⟨hp, hd, hw⟩ := h
  obtain ⟨-, hwpos⟩ := hv
  have hq' : (v.q : ℝ) ≤ v'.q := by exact_mod_cast hq
  unfold Spec.value
  rw [← hp, ← hd, ← hw]
  gcongr

/-- R152: Max is the greater root. -/
theorem value_pickRoot_max (h : v.Conjugate v') (hv : v.WellFormed) (hv' : v'.WellFormed) :
    Spec.value (pickRoot .max v v') = max (Spec.value v) (Spec.value v') := by
  dsimp only [pickRoot]
  split_ifs with hq
  · exact (max_eq_left (h.symm.value_le hv' hq)).symm
  · exact (max_eq_right (h.value_le hv (not_le.1 hq).le)).symm

/-- R152: Min is the lesser root. -/
theorem value_pickRoot_min (h : v.Conjugate v') (hv : v.WellFormed) (hv' : v'.WellFormed) :
    Spec.value (pickRoot .min v v') = min (Spec.value v) (Spec.value v') := by
  dsimp only [pickRoot]
  split_ifs with hq
  · exact (min_eq_left (h.value_le hv hq)).symm
  · exact (min_eq_right (h.symm.value_le hv' (not_le.1 hq).le)).symm

theorem pickRoot_wellFormed (h : v.WellFormed) (h' : v'.WellFormed) : (pickRoot choice v v').WellFormed := by
  cases choice <;> dsimp only [pickRoot] <;> split_ifs <;> assumption

end PickRoot

section Solve

variable {a b c : RealTerm} (choice : RootChoice)

/-- R151. -/
@[simp] theorem value_discriminant (a b c : RealTerm) :
    (discriminant a b c).value = b.value * b.value - 4 * a.value * c.value := by
  simp [discriminant, mul_assoc]

/-- The root of R152 that takes `sign`·√D. -/
def rootSurd (a b c : RealTerm) (sign : Rat) : Surd := Surd.over b.neg sign (discriminant a b c) (a.scale 2)

@[simp] theorem value_rootSurd (a b c : RealTerm) (sign : Rat) :
    Spec.value (rootSurd a b c sign) =
      (-b.value + (sign : ℝ) * √(b.value * b.value - 4 * a.value * c.value)) / (2 * a.value) := by
  simp [rootSurd]

theorem rootSurd_wellFormed (ha : a.value ≠ 0) (hD : 0 ≤ (discriminant a b c).value) (sign : Rat) :
    (rootSurd a b c sign).WellFormed :=
  Surd.over_wellFormed _ _ hD (by simpa using ha)

/-- R154: the guard where there is no linear equation left. -/
theorem solve_of_zero (ha : a.value = 0) (hb : b.value = 0) : solve a b c choice = Surd.ofRat 0 := by
  simp [solve, ha, hb]

/-- R154: the guard where the equation is linear. -/
theorem solve_of_linear (ha : a.value = 0) (hb : b.value ≠ 0) :
    solve a b c choice = Surd.over c.neg 0 (.ofRat 0) b := by
  simp [solve, ha, hb]

/-- R152: two roots. -/
theorem solve_of_discriminant_pos (ha : a.value ≠ 0) (hD : 0 < (discriminant a b c).value) :
    solve a b c choice = pickRoot choice (rootSurd a b c 1) (rootSurd a b c (-1)) := by
  simp only [solve, RealTerm.isZero_iff, RealTerm.isPos_iff, ha, hD, if_true, if_false, rootSurd]

/-- R153: the vertex. -/
theorem solve_of_discriminant_nonpos (ha : a.value ≠ 0) (hD : ¬ 0 < (discriminant a b c).value) :
    solve a b c choice = Surd.over b.neg 0 (.ofRat 0) (a.scale 2) := by
  simp only [solve, RealTerm.isZero_iff, RealTerm.isPos_iff, ha, hD, if_false]

theorem solve_wellFormed (a b c : RealTerm) : (solve a b c choice).WellFormed := by
  by_cases ha : a.value = 0
  · by_cases hb : b.value = 0
    · rw [solve_of_zero choice ha hb]
      exact Surd.ofRat_wellFormed 0
    · rw [solve_of_linear choice ha hb]
      exact Surd.over_wellFormed _ _ (by simp) hb
  · by_cases hD : 0 < (discriminant a b c).value
    · rw [solve_of_discriminant_pos choice ha hD]
      exact pickRoot_wellFormed (rootSurd_wellFormed ha hD.le 1) (rootSurd_wellFormed ha hD.le (-1))
    · rw [solve_of_discriminant_nonpos choice ha hD]
      exact Surd.over_wellFormed _ _ (by simp) (by simpa using ha)

/-- R152 in numbers: the chosen surd is the chosen root. -/
theorem value_pickRoot_rootSurd (ha : a.value ≠ 0) (hD : 0 < (discriminant a b c).value) :
    Spec.value (pickRoot choice (rootSurd a b c 1) (rootSurd a b c (-1))) =
      Spec.solve a.value b.value c.value choice := by
  have hconj : (rootSurd a b c 1).Conjugate (rootSurd a b c (-1)) := Surd.over_conjugate _ _ _ _ _
  have hplus := rootSurd_wellFormed ha hD.le 1
  have hminus := rootSurd_wellFormed ha hD.le (-1)
  rw [value_discriminant] at hD
  unfold Spec.solve
  rw [if_neg ha, if_pos hD]
  cases choice with
  | max => simp [value_pickRoot_max hconj hplus hminus, sub_eq_add_neg]
  | min => simp [value_pickRoot_min hconj hplus hminus, sub_eq_add_neg]

theorem value_solve (a b c : RealTerm) :
    Spec.value (solve a b c choice) = Spec.solve a.value b.value c.value choice := by
  by_cases ha : a.value = 0
  · by_cases hb : b.value = 0
    · simp [solve_of_zero choice ha hb, Spec.solve, ha, hb]
    · simp [solve_of_linear choice ha hb, Spec.solve, ha, hb]
  · by_cases hD : 0 < (discriminant a b c).value
    · rw [solve_of_discriminant_pos choice ha hD, value_pickRoot_rootSurd choice ha hD]
    · rw [solve_of_discriminant_nonpos choice ha hD]
      rw [value_discriminant] at hD
      simp [Spec.solve, ha, hD]

end Solve

/-- Settles O23: the guard, the two roots and the vertex are taken in the same cases by both, and in each the surd is
built over a denominator made positive. -/
theorem solverMatchesReals : Obligations.SolverMatchesReals := fun a b c choice =>
  ⟨value_solve choice a b c, solve_wellFormed choice a b c⟩

end Sys2Proof.Machine

/-! PROOFS. The integer a field gets from a surd (spec/00_scope R18), and how near to it an implementation stores. -/

namespace Sys2Proof.Machine

/-- `0 ≤ u + r` for a nonnegative `r`, by the sign of `u` and the squares alone. -/
theorem add_nonneg_iff_of_nonneg {u r : ℝ} (hr : 0 ≤ r) : 0 ≤ u + r ↔ 0 ≤ u ∨ u * u ≤ r * r := by
  rcases le_total 0 u with hu | hu
  · exact iff_of_true (add_nonneg hu hr) (.inl hu)
  · have habs : u * u ≤ r * r ↔ -u ≤ r := by
      rw [← abs_le_iff_mul_self_le, abs_of_nonpos hu, abs_of_nonneg hr]
    rw [habs]
    constructor
    · exact fun h => .inr (by linarith)
    · rintro (h | h) <;> linarith

/-- `0 ≤ u + r` for an `r` that is not positive, by the sign of `u` and the squares alone. -/
theorem add_nonneg_iff_of_nonpos {u r : ℝ} (hr : r ≤ 0) : 0 ≤ u + r ↔ 0 ≤ u ∧ r * r ≤ u * u := by
  rcases le_or_gt 0 u with hu | hu
  · rw [← abs_le_iff_mul_self_le, abs_of_nonneg hu, abs_of_nonpos hr]
    constructor
    · exact fun h => ⟨hu, by linarith⟩
    · rintro ⟨-, h⟩; linarith
  · exact iff_of_false (by linarith) fun h => hu.not_ge h.1

section Surd

variable {v : Surd}

/-- The comparison the fields are found with is that of the real numbers. -/
theorem Surd.atLeast_iff (hv : v.WellFormed) (y : Rat) : v.atLeast y = true ↔ (y : ℝ) ≤ Spec.value v := by
  obtain ⟨hd, hw⟩ := hv
  have hroot : (v.q : ℝ) * √v.d.value * (v.q * √v.d.value) = v.q * v.q * v.d.value := by
    rw [mul_mul_mul_comm, Real.mul_self_sqrt hd]
  have hle : (y : ℝ) ≤ Spec.value v ↔ 0 ≤ (v.p.value - y * v.w.value) + v.q * √v.d.value := by
    rw [Spec.value, le_div_iff₀ hw, ← sub_nonneg]
    ring_nf
  unfold Surd.atLeast
  rw [hle]
  split_ifs with hq
  · have hr : 0 ≤ (v.q : ℝ) * √v.d.value := mul_nonneg (by exact_mod_cast hq) (Real.sqrt_nonneg _)
    rw [add_nonneg_iff_of_nonneg hr, hroot]
    simp
  · have hr : (v.q : ℝ) * √v.d.value ≤ 0 :=
      mul_nonpos_of_nonpos_of_nonneg (by exact_mod_cast (not_le.1 hq).le) (Real.sqrt_nonneg _)
    rw [add_nonneg_iff_of_nonpos hr, hroot]
    simp

@[simp] theorem Surd.value_scale (k : Rat) (v : Surd) : Spec.value (v.scale k) = k * Spec.value v := by
  simp only [Spec.value, Surd.scale, RealTerm.value_scale, Rat.cast_mul]
  ring

theorem Surd.WellFormed.scale (hv : v.WellFormed) (k : Rat) : (v.scale k).WellFormed := hv

theorem Surd.WellFormed.value_shift (hv : v.WellFormed) (k : Rat) :
    Spec.value (v.shift k) = Spec.value v + k := by
  have hw : v.w.value ≠ 0 := hv.2.ne'
  simp only [Spec.value, Surd.shift, RealTerm.value_add, RealTerm.value_scale]
  field_simp
  ring

theorem Surd.WellFormed.shift (hv : v.WellFormed) (k : Rat) : (v.shift k).WellFormed := hv

theorem fieldOf_value_eq_greatest (bits : Nat) (v : Surd) :
    (fieldOf bits v).value = greatest (fun n => v.atLeast n) bits 0 := rfl

/-- The integers that fit the field and are at most the surd are those up to the field's integer. -/
theorem le_fieldOf_value (hv : v.WellFormed) {bits n : Nat} (hn : 0 < n) (hlt : n < 2 ^ bits) :
    n ≤ (fieldOf bits v).value ↔ (n : ℝ) ≤ Spec.value v := by
  have hdown : ∀ i j : Nat, i ≤ j → v.atLeast j = true → v.atLeast i = true := by
    intro i j hij hj
    rw [Surd.atLeast_iff hv] at hj ⊢
    exact le_trans (by exact_mod_cast hij) hj
  obtain ⟨-, -, hgreatest⟩ := greatest_spec hdown bits 0
  rw [fieldOf_value_eq_greatest, ← hgreatest n hn (by omega), Surd.atLeast_iff hv, Rat.cast_natCast]

/-- R18: the search finds `to_field_M` of the surd's real value. -/
theorem fieldOf_value (hv : v.WellFormed) (bits : Nat) :
    ((fieldOf bits v).value : ℤ) = Spec.toField (2 ^ bits - 1) (Spec.value v) := by
  have hlt := fieldOf_lt bits v
  have hle : ∀ n : Nat, 0 < n → n < 2 ^ bits → (n ≤ (fieldOf bits v).value ↔ (n : ℝ) ≤ Spec.value v) :=
    fun n => le_fieldOf_value hv
  generalize (fieldOf bits v).value = f at hlt hle
  refine (Int.floor_eq_iff.2 ⟨le_min (le_max_iff.2 ?atMostValue) ?fits, min_lt_iff.2 ?greatest⟩).symm
  case atMostValue =>
    rcases Nat.eq_zero_or_pos f with rfl | hf
    · exact .inr (by simp)
    · exact .inl (by simpa using (hle f hf hlt).1 le_rfl)
  case fits => exact_mod_cast (by omega : f ≤ 2 ^ bits - 1)
  case greatest =>
    rcases Nat.lt_or_ge (f + 1) (2 ^ bits) with hf | hf
    · have hnot : ¬ ((f + 1 : Nat) : ℝ) ≤ Spec.value v := fun h => by
        have := (hle (f + 1) (by omega) hf).2 h
        omega
      exact .inl (max_lt (by simpa using hnot) (by positivity))
    · exact .inr (by exact_mod_cast (by omega : 2 ^ bits - 1 < f + 1))

end Surd

/-- D5: the deviation stays within the tolerance. -/
theorem abs_deviation_le (tolerance : Nat) (call : CodecCall) : |deviation tolerance call| ≤ tolerance := by
  rw [abs_le]
  unfold deviation clampInt
  split_ifs <;> omega

/-- R18: what an implementation stores lies within the tolerance of an exact integer that fits the field. -/
theorem abs_stored_sub_le (c : Config) (call : CodecCall) {m exact : Nat} (hm : exact ≤ m) :
    |(stored c call m exact : ℤ) - exact| ≤ c.codecTolerance := by
  have hdev := abs_deviation_le c.codecTolerance call
  rw [abs_le] at hdev ⊢
  unfold stored clampInt
  omega

/-- R18: what is stored of a surd, read back from a word of the field's width, is `to_field_M` of its real value within
the tolerance. -/
theorem abs_stored_fieldOf_sub_le {v : Surd} (hv : v.WellFormed) (c : Config) (call : CodecCall) (bits : Nat) :
    |((BitVec.ofNat bits (stored c call (2 ^ bits - 1) (fieldOf bits v).value)).toNat : ℤ) -
      Spec.toField (2 ^ bits - 1) (Spec.value v)| ≤ c.codecTolerance := by
  have hstored := stored_le c call (2 ^ bits - 1) (fieldOf bits v).value
  have hfield := fieldOf_lt bits v
  rw [BitVec.toNat_ofNat, Nat.mod_eq_of_lt (by omega), ← fieldOf_value hv]
  exact abs_stored_sub_le c call (by omega)

end Sys2Proof.Machine

/-! PROOFS. The data fields of the BME280 register file after they are written (spec/42_bme280_codec R181, R182). -/

namespace Sys2Proof.Machine

variable {s : State}

/-- `MemWrite` changes the register file alone. -/
theorem State.memWrite_eq (s : State) (a : Nat) (l : List Byte) : s.memWrite a l = { s with x := (s.memWrite a l).x } := by
  induction l generalizing s a with
  | nil => rfl
  | cons v rest ih =>
    rw [State.memWrite, ih]
    rfl

/-- R182: PUT20 writes three bytes. -/
theorem State.readByte_put20 (h : s.memWf) {a : Nat} (ha : a + 3 ≤ 256) (v : Word20) :
    (s.put20 a v).readByte a = v.extractLsb' 12 8 ∧ (s.put20 a v).readByte (a + 1) = v.extractLsb' 4 8 ∧
      (s.put20 a v).readByte (a + 2) = v.extractLsb' 0 4 ++ (0 : BitVec 4) := by
  have hread : ∀ i < 3, (s.put20 a v).readByte (a + i) = (put20Bytes v).getD i 0#8 := fun i hi =>
    State.readByte_memWrite ha hi h
  exact ⟨hread 0 (by omega), hread 1 (by omega), hread 2 (by omega)⟩

theorem State.readByte_put20_other (s : State) {a b : Nat} (v : Word20) (h : b < a ∨ a + 2 < b) :
    (s.put20 a v).readByte b = s.readByte b :=
  State.readByte_memWrite_other s (by simp only [put20Bytes, List.length_cons, List.length_nil]; omega)

/-- R181, R182: `adc_T` is what PUT20 wrote at 0xFA. -/
theorem State.adcT_put20 (h : s.memWf) (v : Word20) : (s.put20 0xFA v).adcT = v.toNat := by
  obtain ⟨hfa, hfb, hfc⟩ := State.readByte_put20 h (a := 0xFA) (by omega) v
  rw [State.adcT, hfa, hfb, hfc, BitVec.toNat_append]
  simp only [BitVec.extractLsb'_toNat, Nat.shiftRight_eq_div_pow, Nat.shiftLeft_eq, BitVec.ofNat_eq_ofNat,
    BitVec.toNat_ofNat, Nat.zero_mod, Nat.or_zero]
  omega

/-- R182: the low nibble of PUT20's last byte is 0. -/
theorem State.put20_lowNibble (h : s.memWf) (v : Word20) : (s.put20 0xFA v).readByte 0xFC &&& 0x0F#8 = 0#8 := by
  obtain ⟨-, -, hfc⟩ := State.readByte_put20 h (a := 0xFA) (by omega) v
  rw [hfc, show 0x0F#8 = 0x0#4 ++ 0xF#4 from rfl, BitVec.and_append]
  simp

/-- R181: `adc_H` is the word written at 0xFD, high byte first. -/
theorem State.adcH_memWrite (h : s.memWf) (w : Word16) :
    (s.memWrite 0xFD [hiByte w, loByte w]).adcH = w.toNat := by
  have hread : ∀ i < 2, (s.memWrite 0xFD [hiByte w, loByte w]).readByte (0xFD + i) = [hiByte w, loByte w].getD i 0#8 :=
    fun i hi => State.readByte_memWrite (by simp) hi h
  rw [State.adcH, hread 0 (by omega), hread 1 (by omega)]
  simp only [List.getD_cons_zero, List.getD_cons_succ, hiByte, loByte, BitVec.extractLsb'_toNat,
    Nat.shiftRight_eq_div_pow]
  omega

end Sys2Proof.Machine

/-! PROOFS. The inverse compensation of the BME280 (spec/42_bme280_codec R183 to R186). -/

namespace Sys2Proof.Machine

/-! ### Temperature -/

theorem tempExact_wellFormed (t1 t2 t3 : Rat) (t : Number) : (tempExact t1 t2 t3 t).WellFormed :=
  (solve_wellFormed _ _ _ _).scale _

/-- R183: the surd of SET_T is the rule's real number. -/
theorem value_tempExact (t1 t2 t3 : ℤ) (t : Number) :
    Spec.value (tempExact t1 t2 t3 t) = Spec.temperature t1 t2 t3 t.value := by
  have ha : (tempCoeffs t1 t2 t3 t).1.value = Spec.tempA t3 := by simp [tempCoeffs, Spec.tempA]
  have hb : (tempCoeffs t1 t2 t3 t).2.1.value = Spec.tempB t1 t2 t3 := by simp [tempCoeffs, Spec.tempB]
  have hc : (tempCoeffs t1 t2 t3 t).2.2.value = Spec.tempC t1 t2 t3 t.value := by simp [tempCoeffs, Spec.tempC]
  rw [tempExact, Surd.value_scale, value_solve, ha, hb, hc, Spec.temperature, mul_comm]
  norm_num

/-- SET_T is a PUT20 at 0xFA of a word within the tolerance of the rule's integer, and notes. -/
theorem State.bmeSetT_eq_put20 (s : State) (q : Number) :
    ∃ (v : Word20) (classes : List ErrorClass), s.bmeSetT q = (s.put20 0xFA v).note classes ∧
      |(v.toNat : ℤ) - Spec.toField 0xFFFFF (Spec.temperature s.calT1 s.calT2 s.calT3 q.value)| ≤
        s.cfg.codecTolerance := by
  refine ⟨_, _, rfl, ?_⟩
  rw [← value_tempExact]
  exact abs_stored_fieldOf_sub_le (tempExact_wellFormed _ _ _ _) s.cfg _ 20

theorem exec_bme280SetT (q : Number) (s : State) :
    exec (.bme280SetT (.finite q)) s = onFamily isBme280 s fun s => s.bmeSetT q := rfl

/-- Settles O26: SET_T is one PUT20 of a word near the rule's integer; the rest is what PUT20 writes and leaves. -/
theorem bmeSetTStoresCompensation : Obligations.BmeSetTStoresCompensation := by
  intro s q hready hmem
  obtain ⟨v, classes, heq, hnear⟩ := s.begin.bmeSetT_eq_put20 q
  have hmem' : s.begin.memWf := hmem
  refine ⟨(s.begin.put20 0xFA v).note classes, ?next, ?value, ?nibble, ?frame, ?rest⟩
  case next => rw [exec_bme280SetT, onFamily_ready hready.config hready.family, heq]
  case value =>
    have hadc : ((s.begin.put20 0xFA v).note classes).adcT = v.toNat := State.adcT_put20 hmem' v
    rw [hadc]
    exact hnear
  case nibble => exact State.put20_lowNibble hmem' v
  case frame => exact fun a ha => State.readByte_put20_other s.begin v (by omega)
  case rest =>
    rw [State.put20, State.memWrite_eq]
    rfl

/-! ### Humidity -/

/-- R185: c4 of the register file is the rule's real number. -/
theorem State.humTerms_c4 (s : State) :
    ((s.humTerms.c4 : Rat) : ℝ) = Spec.c4 s.tFine s.calH2 s.calH3 s.calH6 := by
  simp [State.humTerms, Machine.humTerms, Spec.c4]

/-- R185: the surd of SET_H is the rule's real number. -/
theorem State.value_humExact (s : State) (h : Number) :
    Spec.value (humExact s.humTerms h) = Spec.humidityOf s h.value := by
  have hsolve := (solve_wellFormed .min (.ofRat s.humTerms.c2) (.ofRat (-1)) (.num h)).scale (1 / s.humTerms.c4)
  rw [humExact, hsolve.value_shift, Surd.value_scale, value_solve, Rat.cast_div, s.humTerms_c4]
  have hc2 : ((s.humTerms.c2 : Rat) : ℝ) = (s.calH1 : ℝ) / 524288 := by simp [State.humTerms, Machine.humTerms]
  have hc3 : ((s.humTerms.c3 : Rat) : ℝ) = (s.calH4 : ℝ) * 64 + s.calH5 / 16384 * (s.tFine - 76800) := by
    simp [State.humTerms, Machine.humTerms]
  simp only [RealTerm.value_ofRat, RealTerm.value_num, hc2, hc3, Rat.cast_one, Rat.cast_neg, Spec.humidityOf,
    Spec.humidity]
  rw [one_div_mul_eq_div]

theorem humExact_wellFormed (t : HumTerms) (h : Number) : (humExact t h).WellFormed :=
  ((solve_wellFormed _ _ _ _).scale _).shift _

/-- R186: where c4 = 0, SET_H only notes. -/
theorem State.bmeSetH_of_c4_zero {s : State} (hc4 : s.humTerms.c4 = 0) (q : Number) :
    ∃ classes, s.bmeSetH q = s.note classes := by
  unfold State.bmeSetH
  exact ⟨_, if_pos hc4⟩

/-- R185: elsewhere SET_H is a write at 0xFD of a word within the tolerance of the rule's integer, and notes. -/
theorem State.bmeSetH_of_c4_ne_zero {s : State} (hc4 : s.humTerms.c4 ≠ 0) (q : Number) :
    ∃ (w : Word16) (classes : List ErrorClass), s.bmeSetH q = (s.memWrite 0xFD [hiByte w, loByte w]).note classes ∧
      |(w.toNat : ℤ) - Spec.toField 0xFFFF (Spec.humidityOf s (min (max q.value 0) 100))| ≤ s.cfg.codecTolerance := by
  have hclamp : (q.clamp 0 100).value = min (max q.value 0) 100 := by
    simpa using q.value_clamp (lo := 0) (hi := 100) (by norm_num)
  unfold State.bmeSetH
  refine ⟨_, _, if_neg hc4, ?_⟩
  rw [← hclamp, ← s.value_humExact]
  exact abs_stored_fieldOf_sub_le (humExact_wellFormed _ _) s.cfg _ 16

theorem exec_bme280SetH (q : Number) (s : State) :
    exec (.bme280SetH (.finite q)) s = onFamily isBme280 s fun s => s.bmeSetH q := rfl

/-- Settles O27, by whether c4 = 0: SET_H either only notes, or writes one word near the rule's integer. -/
theorem bmeSetHStoresCompensation : Obligations.BmeSetHStoresCompensation := by
  intro s q hready hmem
  have hnext : exec (.bme280SetH (.finite q)) s = .next (s.begin.bmeSetH q) := by
    rw [exec_bme280SetH, onFamily_ready hready.config hready.family]
  have hc4cast : Spec.c4 s.tFine s.calH2 s.calH3 s.calH6 = 0 ↔ s.begin.humTerms.c4 = 0 := by
    rw [← s.humTerms_c4, Rat.cast_eq_zero]
    rfl
  by_cases hc4 : s.begin.humTerms.c4 = 0
  · obtain ⟨classes, heq⟩ := State.bmeSetH_of_c4_zero hc4 q
    rw [heq] at hnext
    exact ⟨_, hnext, fun _ _ => rfl, fun hne => absurd (hc4cast.2 hc4) hne, fun _ _ => rfl, rfl⟩
  · obtain ⟨w, classes, heq, hnear⟩ := State.bmeSetH_of_c4_ne_zero hc4 q
    have hmem' : s.begin.memWf := hmem
    rw [heq] at hnext
    refine ⟨_, hnext, fun h => absurd (hc4cast.1 h) hc4, fun _ => ?value, fun a ha => ?frame, ?rest⟩
    case value =>
      have hadc : ((s.begin.memWrite 0xFD [hiByte w, loByte w]).note classes).adcH = w.toNat :=
        State.adcH_memWrite hmem' w
      rw [hadc]
      exact hnear
    case frame =>
      exact State.readByte_memWrite_other s.begin (by simp only [List.length_cons, List.length_nil]; omega)
    case rest =>
      rw [State.memWrite_eq]
      rfl

/-! ### t_fine -/

/-- R17: a right shift is the floor of the rational quotient. -/
theorem asr_eq_floor (x : ℤ) (k : ℕ) : asr x k = ⌊(x : ℚ) / 2 ^ k⌋ := by
  calc asr x k = x / ((2 ^ k : ℕ) : ℤ) := by
        rw [asr, Int.fdiv_eq_ediv_of_nonneg _ (by positivity)]
        norm_cast
    _ = ⌊(x : ℚ) / ((2 ^ k : ℕ) : ℚ)⌋ := (Rat.floor_intCast_div_natCast x (2 ^ k)).symm
    _ = ⌊(x : ℚ) / 2 ^ k⌋ := by push_cast; rfl

/-- Settles O28: `tFineOf` is the rule's formula once each of its five shifts is read as a floor. -/
theorem tFineFloorShifts : Obligations.TFineFloorShifts := by
  intro s
  simp only [State.tFine, tFineOf, asr_eq_floor, Int.cast_natCast, mul_comm 2 s.calT1]

end Sys2Proof.Machine

/-! PROOFS. When a field counts a surd as clamped, and the notes an event lists (spec/60_exceptions R331, R333). -/

namespace Sys2Proof.Machine

section Surd

variable {v : Surd}

/-- The opposite comparison is that of the real numbers too. -/
theorem Surd.atMost_iff (hv : v.WellFormed) (y : Rat) : v.atMost y = true ↔ Spec.value v ≤ (y : ℝ) := by
  rw [Surd.atMost, Surd.atLeast_iff (hv.scale (-1)), Surd.value_scale]
  push_cast
  constructor <;> intro h <;> linarith

/-- R331 class 3: the value is clamped exactly where it lies outside the field. -/
theorem fieldOf_clamped_iff (hv : v.WellFormed) (bits : Nat) :
    (fieldOf bits v).clamped = true ↔ Spec.value v < 0 ∨ 2 ^ bits - 1 < Spec.value v := by
  have hbelow := Surd.atLeast_iff hv 0
  have habove := Surd.atMost_iff hv (2 ^ bits - 1)
  push_cast at hbelow habove
  calc (fieldOf bits v).clamped = true
      ↔ ¬ v.atLeast 0 = true ∨ ¬ v.atMost (2 ^ bits - 1) = true := by simp [fieldOf]
    _ ↔ Spec.value v < 0 ∨ 2 ^ bits - 1 < Spec.value v := by rw [hbelow, habove, not_le, not_le]

end Surd

/-- D10: a humidity is clamped exactly where it lies outside [0, 100]. -/
theorem humClamped_iff (q : Number) : humClamped q = true ↔ q.value < 0 ∨ 100 < q.value := by
  simp [humClamped]

@[simp] theorem notesOf_nil : notesOf [] = [] := rfl

/-- R333: the first class is listed first, where its condition is met. -/
theorem notesOf_cons {b : Bool} {P : Prop} [Decidable P] (h : b = true ↔ P) (e : ErrorClass)
    (l : List (Bool × ErrorClass)) : notesOf ((b, e) :: l) = (if P then [e] else []) ++ notesOf l := by
  split_ifs with hP
  · obtain rfl := h.2 hP
    rfl
  · obtain rfl := Bool.eq_false_iff.2 (hP ∘ h.1)
    rfl

end Sys2Proof.Machine

/-! PROOFS. The affine codec of the Sensirion families (spec/43_sensirion_codec R220 to R222). -/

namespace Sys2Proof.Machine

/-! ### Temperature -/

theorem shtTempExact_wellFormed (q : Number) : (shtTempExact q).WellFormed :=
  Surd.over_wellFormed _ _ (by simp) (by simp [Config.tSpan])

/-- R220: the surd of SET_T is the rule's real number. -/
theorem value_shtTempExact (q : Number) : Spec.value (shtTempExact q) = (q.value + 45) * 65535 / 175 := by
  simp [shtTempExact, Config.tOffset, Config.tSpan, mul_comm]

/-- R220, R331: the word is clamped exactly for a temperature outside [-45, 130]. -/
theorem shtTempExact_clamped_iff (q : Number) :
    (fieldOf 16 (shtTempExact q)).clamped = true ↔ q.value < -45 ∨ 130 < q.value := by
  rw [fieldOf_clamped_iff (shtTempExact_wellFormed q), value_shtTempExact]
  refine or_congr ?below ?above
  case below => constructor <;> intro h <;> linarith
  case above => constructor <;> intro h <;> linarith

theorem exec_shtSetT (q : Number) (s : State) :
    exec (.shtSetT (.finite q)) s = onFamily Family.isSensirion s fun s => s.shtSetT q := rfl

/-- R220: SET_T changes `T_RAW` alone. -/
theorem State.begin_shtSetT (s : State) (q : Number) :
    s.begin.shtSetT q =
      Spec.quiet { s with tRaw := (s.begin.shtSetT q).tRaw }
        (notesOf [((fieldOf 16 (shtTempExact q)).clamped, .clamped)]) := rfl

/-- R220, R18: the word SET_T stores is the rule's integer within the tolerance. -/
theorem State.abs_shtSetT_tRaw_sub_le (s : State) (q : Number) :
    |((s.shtSetT q).tRaw.toNat : ℤ) - Spec.toField 0xFFFF ((q.value + 45) * 65535 / 175)| ≤ s.cfg.codecTolerance := by
  rw [← value_shtTempExact]
  exact abs_stored_fieldOf_sub_le (shtTempExact_wellFormed q) s.cfg _ 16

/-- Settles O47: SET_T stores a word near the affine transform of T, which leaves the field exactly outside [-45, 130]. -/
theorem shtSetTStoresWord : Obligations.ShtSetTStoresWord := by
  intro s q hready
  refine ⟨s.begin.shtSetT q, ?next, s.begin.abs_shtSetT_tRaw_sub_le q, ?rest⟩
  case next => rw [exec_shtSetT, onFamily_ready hready.config hready.family]
  case rest =>
    refine (s.begin_shtSetT q).trans (congrArg _ ?_)
    rw [notesOf_cons (shtTempExact_clamped_iff q), notesOf_nil, List.append_nil]

/-! ### Humidity -/

/-- R222, R365: a Sensirion instance that runs events has a positive span. -/
theorem Ready.humSpan_pos {s : State} (h : Ready Family.isSensirion s) : 0 < s.cfg.params.humSpan.value :=
  ((Config.wellFormed_sensirion h.family).1 h.config).2

theorem shtHumExact_wellFormed {p : ShtParams} (hspan : 0 < p.humSpan.value) (h : Number) :
    (shtHumExact p h).WellFormed :=
  Surd.over_wellFormed _ _ (by simp) hspan.ne'

/-- R221: the surd of SET_H is the rule's real number. -/
theorem value_shtHumExact (p : ShtParams) (h : Number) : Spec.value (shtHumExact p h) = Spec.shtHumidity p h.value := by
  simp [shtHumExact, Spec.shtHumidity, mul_comm]

/-- D10: the clamped humidity of both codecs. -/
theorem value_clamp_percent (q : Number) : (q.clamp 0 100).value = min (max q.value 0) 100 := by
  simpa using q.value_clamp (lo := 0) (hi := 100) (by norm_num)

theorem exec_shtSetH (q : Number) (s : State) :
    exec (.shtSetH (.finite q)) s = onFamily Family.isSensirion s fun s => s.shtSetH q := rfl

/-- R221: SET_H changes `H_RAW` alone. -/
theorem State.begin_shtSetH (s : State) (q : Number) :
    s.begin.shtSetH q =
      Spec.quiet { s with hRaw := (s.begin.shtSetH q).hRaw }
        (notesOf [(humClamped q, .clamped),
          ((fieldOf 16 (shtHumExact s.cfg.params (q.clamp 0 100))).clamped, .clamped)]) := rfl

section Humidity

variable {s : State} (hspan : 0 < s.cfg.params.humSpan.value) (q : Number)
include hspan

/-- R221, R18: the word SET_H stores is the rule's integer of the clamped humidity within the tolerance. -/
theorem State.abs_shtSetH_hRaw_sub_le :
    |((s.shtSetH q).hRaw.toNat : ℤ) -
      Spec.toField 0xFFFF (Spec.shtHumidity s.cfg.params (min (max q.value 0) 100))| ≤ s.cfg.codecTolerance := by
  rw [← value_clamp_percent, ← value_shtHumExact]
  exact abs_stored_fieldOf_sub_le (shtHumExact_wellFormed hspan _) s.cfg _ 16

/-- R221, R331: the second clamp of SET_H is that of the transformed value. -/
theorem shtHumExact_clamped_iff :
    (fieldOf 16 (shtHumExact s.cfg.params (q.clamp 0 100))).clamped = true ↔
      Spec.shtHumidity s.cfg.params (min (max q.value 0) 100) < 0 ∨
        0xFFFF < Spec.shtHumidity s.cfg.params (min (max q.value 0) 100) := by
  rw [fieldOf_clamped_iff (shtHumExact_wellFormed hspan _), value_shtHumExact, value_clamp_percent]
  norm_num

end Humidity

/-- Settles O48: SET_H stores a word near the affine transform of the clamped H; the argument is noted first, then the
result. -/
theorem shtSetHStoresWord : Obligations.ShtSetHStoresWord := by
  intro s q hready
  have hspan := hready.humSpan_pos
  refine ⟨s.begin.shtSetH q, ?next, State.abs_shtSetH_hRaw_sub_le (s := s.begin) hspan q, ?rest⟩
  case next => rw [exec_shtSetH, onFamily_ready hready.config hready.family]
  case rest =>
    refine (s.begin_shtSetH q).trans (congrArg _ ?_)
    rw [notesOf_cons (humClamped_iff q), notesOf_cons (shtHumExact_clamped_iff hspan q), notesOf_nil, List.append_nil]

end Sys2Proof.Machine

/-! PROOFS. What a write transfer stores in the register file (spec/30_encoding R111, spec/44_bme280_bus R250 to R255). -/

namespace Sys2Proof.Machine

/-! ### The last pair of a transfer that addresses a byte -/

namespace Spec

/-- The pairs of a transfer are its first two bytes and the pairs of the rest. -/
theorem map_pairAt_cons_cons (c v : Byte) (rest : List Byte) :
    (List.range ((c :: v :: rest).length / 2)).map (pairAt (c :: v :: rest)) =
      (c, v) :: (List.range (rest.length / 2)).map (pairAt rest) := by
  have hlen : (c :: v :: rest).length / 2 = rest.length / 2 + 1 := by
    simp only [List.length_cons]
    omega
  rw [hlen, List.range_succ_eq_map, List.map_cons, List.map_map]
  rfl

@[simp] theorem lastStored_nil (a : Nat) : lastStored [] a = none := rfl

@[simp] theorem lastStored_singleton (c : Byte) (a : Nat) : lastStored [c] a = none := by
  simp [lastStored]

/-- A later pair with the address goes before the first pair. -/
theorem lastStored_cons_cons (c v : Byte) (rest : List Byte) (a : Nat) :
    lastStored (c :: v :: rest) a = (lastStored rest a).or (if c.toNat = a then some v else none) := by
  rw [lastStored, map_pairAt_cons_cons, List.reverse_cons, List.find?_append, Option.map_or]
  congr 1
  by_cases hc : c.toNat = a <;> simp [hc]

end Spec

/-! ### The pairs of R253 -/

/-- One pair of a transfer: the address is latched and the value stored there. -/
def State.storePair (s : State) (a v : Byte) : State := ({ s with ca := a }).writeByte a.toNat v

variable {s : State}

theorem State.storePair_memWf (a v : Byte) (h : s.memWf) : (s.storePair a v).memWf :=
  State.writeByte_memWf (s := { s with ca := a }) v a.isLt h

theorem State.readByte_storePair (a v : Byte) (r : Nat) (h : s.memWf) :
    (s.storePair a v).readByte r = if a.toNat = r then v else s.readByte r := by
  split_ifs with hr
  · subst hr
    exact State.readByte_writeByte_same (s := { s with ca := a }) v h
  · exact State.readByte_writeByte_other { s with ca := a } v (Ne.symm hr)

/-- R253, R255: each byte ends as the last pair that addresses it has it. -/
theorem State.readByte_writePairs (h : s.memWf) (b : List Byte) (r : Nat) :
    (s.writePairs b).readByte r = (Spec.lastStored b r).getD (s.readByte r) := by
  induction s, b using State.writePairs.induct with
  | case1 s => rfl
  | case2 s a =>
    rw [Spec.lastStored_singleton]
    rfl
  | case3 s a v rest ih =>
    calc
      (s.writePairs (a :: v :: rest)).readByte r = (Spec.lastStored rest r).getD ((s.storePair a v).readByte r) :=
        ih (State.storePair_memWf a v h)
      _ = (Spec.lastStored (a :: v :: rest) r).getD (s.readByte r) := by
        rw [State.readByte_storePair a v r h, Spec.lastStored_cons_cons, Option.getD_or]
        split_ifs <;> rfl

/-- R253: `CA` ends as the last byte of even index. -/
theorem State.writePairs_ca (s : State) (b : List Byte) :
    (s.writePairs b).ca = if b.length = 0 then s.ca else b.getD (2 * ((b.length - 1) / 2)) 0#8 := by
  induction s, b using State.writePairs.induct with
  | case1 s => rfl
  | case2 s a => simp [State.writePairs]
  | case3 s a v rest ih =>
    cases rest with
    | nil => simp [State.writePairs]
    | cons c rest =>
      have hindex : 2 * (((a :: v :: c :: rest).length - 1) / 2) = 2 * (((c :: rest).length - 1) / 2) + 2 := by
        simp only [List.length_cons]
        omega
      rw [State.writePairs, ih, hindex]
      simp

/-- R253: a transfer changes `CA` and the register file alone. -/
theorem State.writePairs_eq (s : State) (b : List Byte) :
    s.writePairs b = { s with x := (s.writePairs b).x, ca := (s.writePairs b).ca } := by
  induction s, b using State.writePairs.induct with
  | case1 s => rfl
  | case2 s a => rfl
  | case3 s a v rest ih =>
    rw [State.writePairs, ih]
    rfl

/-- R250, R253: from an even index on, the loop over the bytes takes them pair by pair. -/
theorem State.busBytes_eq_writePairs (s : State) (b : List Byte) {i : Nat} (hi : i % 2 = 0) :
    s.busBytes i b = s.writePairs b := by
  induction s, b using State.writePairs.induct generalizing i with
  | case1 s => rfl
  | case2 s a => simp [State.busBytes, State.writePairs, hi]
  | case3 s a v rest ih =>
    have hodd : ¬ (i + 1) % 2 = 0 := by omega
    rw [State.busBytes, if_pos hi, State.busBytes, if_neg hodd, ih (by omega)]
    rfl

end Sys2Proof.Machine

/-! PROOFS. The BME280 bus events (spec/44_bme280_bus R250 to R256). -/

namespace Sys2Proof.Machine

variable {s t : State}

/-! ### Writes -/

theorem exec_bme280WriteEmpty (s : State) : exec .bme280WriteEmpty s = onFamily isBme280 s fun s => s := rfl

theorem exec_bme280Select (a : Byte) (s : State) :
    exec (.bme280Select a) s = onFamily isBme280 s fun s => ({ s with ca := a }).latchAddress := rfl

theorem exec_bme280WritePairs (a v : Byte) (rest : List Byte) (s : State) :
    exec (.bme280WritePairs a v rest) s =
      onFamily isBme280 s fun s => (s.writePairs (a :: v :: rest)).latchAddress := rfl

/-- R250: the general write runs the pairs of the transfer and latches the address of one that has a byte. -/
theorem exec_bme280BusWrite (b : List Byte) (s : State) :
    exec (.bme280BusWrite b) s =
      onFamily isBme280 s fun s => if b.length = 0 then s.writePairs b else (s.writePairs b).latchAddress := by
  simp only [← State.busBytes_eq_writePairs _ b (Nat.zero_mod 2)]
  rfl

/-- R253: a write of two bytes or more runs as the general write of its bytes. -/
theorem exec_bme280WritePairs_eq_busWrite (a v : Byte) (rest : List Byte) (s : State) :
    exec (.bme280WritePairs a v rest) s = exec (.bme280BusWrite (a :: v :: rest)) s := by
  rw [exec_bme280BusWrite, exec_bme280WritePairs]
  rfl

/-- Settles O15: the write runs the transfer's pairs from the cleared outputs; latching the address touches `PS` alone. -/
theorem bmeBusWriteStoresPairs : Obligations.BmeBusWriteStoresPairs := by
  intro s b hready hmem
  have hnext := (exec_bme280BusWrite b s).trans (onFamily_ready hready.config hready.family)
  cases b with
  | nil => exact ⟨s.begin, hnext, fun _ => rfl, rfl, rfl, rfl⟩
  | cons c b =>
    refine ⟨_, hnext, State.readByte_writePairs (s := s.begin) hmem _, s.begin.writePairs_ca _, rfl, ?frame⟩
    case frame =>
      rw [s.begin.writePairs_eq]
      rfl

/-- Settles O18: the general write's answer for the transfer `a :: v :: rest`. -/
theorem bmeWritePairsStoresPairs : Obligations.BmeWritePairsStoresPairs := by
  intro s a v rest hready hmem
  obtain ⟨t, hnext, hbytes, hca, hps, hframe⟩ := bmeBusWriteStoresPairs s (a :: v :: rest) hready hmem
  refine ⟨t, (exec_bme280WritePairs_eq_busWrite a v rest s).trans hnext, hbytes, hca, hps, ?_⟩
  rwa [hps] at hframe

/-- Settles O16: the empty write's body is the identity. -/
theorem bmeWriteEmptyChangesNothing : Obligations.BmeWriteEmptyChangesNothing := by
  intro s hready
  rw [exec_bme280WriteEmpty, onFamily_ready hready.config hready.family]
  rfl

/-- Settles O17: the body of SELECT sets `CA` and latches the address. -/
theorem bmeSelectSetsAddress : Obligations.BmeSelectSetsAddress := by
  intro s a hready
  rw [exec_bme280Select, onFamily_ready hready.config hready.family]
  rfl

/-! ### Reads -/

theorem SameBlock.cfg_eq (h : SameBlock s t) : s.cfg = t.cfg := (congrArg (·.cfg) h :)

theorem SameBlock.ca_eq (h : SameBlock s t) : s.ca = t.ca := (congrArg (·.ca) h :)

theorem SameBlock.x_eq (h : SameBlock s t) : s.x = t.x := (congrArg (·.x) h :)

/-- States of one block read the same register file. -/
theorem SameBlock.readByte_eq (h : SameBlock s t) (a : Nat) : s.readByte a = t.readByte a :=
  State.readByte_congr h.cfg_eq h.x_eq a

/-- R334: a read that leaves `CMD` alone changes nothing of the block. -/
theorem State.sameBlock_afterRead (s : State) (reply : List Byte) (k : Option Nat) :
    SameBlock (s.afterRead reply s.cmd k) s := rfl

/-- R254: what a read offers is a function of the block's state. -/
theorem SameBlock.memRead_window (h : SameBlock s t) :
    s.memRead s.ca.toNat (256 - s.ca.toNat) = t.memRead t.ca.toNat (256 - t.ca.toNat) := by
  simp only [State.memRead, h.ca_eq, h.readByte_eq]

/-- Settles O20: the read offers the window at `CA`; it leaves the block as it was, so a second read offers it again. -/
theorem bmeBusReadOffersWindow : Obligations.BmeBusReadOffersWindow := by
  intro s k hready
  have hnext := (exec_bme280BusRead k s).trans (onFamily_ready hready.config hready.family)
  rw [bme280BusRead_next hnext] at hnext
  refine ⟨_, hnext, s.memRead_length _ _, fun j hj => s.memRead_getElem? _ _ j hj, rfl, s.sameBlock_afterRead _ k, ?again⟩
  case again =>
    intro k' u hu
    rw [bme280BusRead_next hu]
    exact (s.sameBlock_afterRead _ k).memRead_window

/-! ### A write followed by a read -/

/-- A run goes on from the answer of its first event. -/
theorem runEvents_cons {e : Event} {rest : List Event} (h : exec (decode s.cfg e) s = .next t) :
    runEvents s (e :: rest) = runEvents t rest := by
  rw [runEvents, h]

section Decode

variable {c : Config} (h : isBme280 c.family = true)
include h

/-- R111: on a BME280 a one-byte write is SELECT. -/
theorem decode_select (a : Byte) : decode c (.busWrite [a]) = .bme280Select a := by
  simp only [decode, decodeWrite, eq_of_beq h]

/-- R111: on a BME280 a write of two bytes or more is WRITE_PAIRS. -/
theorem decode_writePairs (a v : Byte) (rest : List Byte) :
    decode c (.busWrite (a :: v :: rest)) = .bme280WritePairs a v rest := by
  simp only [decode, decodeWrite, eq_of_beq h]

/-- R112: on a BME280 a read is BUS_READ. -/
theorem decode_busRead (k : Option Nat) : decode c (.busRead k) = .bme280BusRead k := by
  simp only [decode, eq_of_beq h]

end Decode

theorem Ready.of_cfg_eq {ok : Family → Bool} (h : Ready ok s) (hcfg : t.cfg = s.cfg) : Ready ok t :=
  ⟨hcfg ▸ h.config, hcfg ▸ h.family⟩

/-- R127: PEEK of one byte offers the addressed byte first, the controller receives it, and no byte changes. -/
theorem runEvents_peek_one (hready : Ready isBme280 s) (a : Byte) :
    ∃ t, runEvents s (peek a 1) = .next t ∧ t.offered.head? = some (s.readByte a.toNat) ∧
      t.received = [some (s.readByte a.toNat)] ∧ ∀ r, t.readByte r = s.readByte r := by
  have hselect := bmeSelectSetsAddress s a hready
  have hselected := hready.of_cfg_eq (t := Spec.quiet { s with ca := a, ps := .addressLatched } []) rfl
  obtain ⟨t, hread, hlength, hbytes, -, hsame, -⟩ := bmeBusReadOffersWindow _ (some 1) hselected
  obtain ⟨hcount, hclocked, -⟩ := clockedBytesArePrefix _ (by simp) _ t 1 hread
  have hwindow : 0 < 256 - a.toNat := by have := a.isLt; omega
  have hoffered : t.offered[0]? = some (s.readByte a.toNat) := hbytes 0 hwindow
  have hfirst : t.received[0]? = some (some (s.readByte a.toNat)) := by
    rw [hclocked 0 (lt_min one_pos (hlength ▸ hwindow)), hoffered]
    rfl
  refine ⟨t, ?run, List.head?_eq_getElem?.trans hoffered, ?received, hsame.readByte_eq⟩
  case run =>
    rw [← decode_select hready.family] at hselect
    rw [← decode_busRead hselected.family] at hread
    rw [peek, runEvents_cons hselect, runEvents_cons hread, runEvents]
  case received =>
    obtain ⟨item, hitem⟩ := List.length_eq_one_iff.1 hcount
    rw [hitem] at hfirst ⊢
    rw [Option.some.inj hfirst]

/-- Settles O22: POKE stores the one pair `(a, v)` and nothing else, and PEEK finds what the register file then holds. -/
theorem bmePokeThenPeek : Obligations.BmePokeThenPeek := by
  intro s a v hready hmem
  obtain ⟨t, hpoke, hbytes, -, -, hframe⟩ := bmeWritePairsStoresPairs s a v [] hready hmem
  have hcell : ∀ r, t.readByte r = if a.toNat = r then v else s.readByte r := fun r => by
    rw [hbytes r, Spec.lastStored_cons_cons, Spec.lastStored_nil, Option.none_or]
    split_ifs <;> rfl
  have hcfg : t.cfg = s.cfg := by
    rw [hframe]
    rfl
  obtain ⟨u, hpeek, hoffered, hreceived, hsame⟩ := runEvents_peek_one (hready.of_cfg_eq hcfg) a
  rw [hcell, if_pos rfl] at hoffered hreceived
  refine ⟨u, ?run, hoffered, hreceived, fun r hr => ?other⟩
  case run =>
    rw [← decode_writePairs hready.family] at hpoke
    exact (runEvents_cons hpoke).trans hpeek
  case other => rw [hsame, hcell, if_neg (Ne.symm hr)]

end Sys2Proof.Machine

/-! PROOFS. The reply a Sensirion read offers (spec/45_sensirion_dispatch R290 to R297). -/

namespace Sys2Proof

/-- A code the table maps to a kind is the code of one of its entries. -/
theorem Config.mem_cmdTable_of_kindOf {c : Config} {code : Word16} {k : Kind} (h : c.kindOf code = some k) :
    (code, k) ∈ c.params.cmdTable := by
  obtain ⟨⟨code', k'⟩, hfind, rfl⟩ := Option.map_eq_some_iff.1 h
  have hcode : code' = code := by simpa using List.find?_some hfind
  exact hcode ▸ List.mem_of_find?_eq_some hfind

/-- R118 (b): an accepted table gives the cleared latch no kind. -/
theorem Config.kindOf_zero {c : Config} (hf : c.family.isSensirion = true) (hw : c.wellFormed = true) :
    c.kindOf 0x0000#16 = none := by
  obtain ⟨-, hzero, -⟩ := Config.tableWellFormed_iff.1 ((Config.wellFormed_sensirion hf).1 hw).1
  exact Option.eq_none_iff_forall_ne_some.2 fun k hk => hzero k (Config.mem_cmdTable_of_kindOf hk)

namespace Machine

variable {s t : State}

theorem Ready.sensirion_of_sht4x (h : Ready isSht4x s) : Ready Family.isSensirion s :=
  ⟨h.config, eq_of_beq h.family ▸ rfl⟩

theorem Ready.sensirion_of_sht31 (h : Ready isSht31 s) : Ready Family.isSensirion s :=
  ⟨h.config, eq_of_beq h.family ▸ rfl⟩

/-- R290, R293 to R296: the reply that a latched command of kind `k` selects, `none` for a code of no kind. -/
def State.replyOf (s : State) : Option Kind → List Byte
  | some .measure => Spec.frame [s.tRaw, s.hRaw]
  | some .readSerial => s.serial.toList
  | some .readStatus => Spec.frame [s.status]
  | some .clearStatus | some .softReset | some .heaterOn | some .heaterOff | some .nop | none => []

/-- Only the three reading kinds select a reply. -/
theorem State.replyOf_eq_nil (s : State) {k : Option Kind}
    (h : k ∉ [some Kind.measure, some .readSerial, some .readStatus]) : s.replyOf k = [] := by
  unfold State.replyOf
  split <;> simp_all

/-- The model's reply: nothing from a cleared latch, else the reply of the latched code's kind. -/
theorem State.shtReply_eq (s : State) :
    s.shtReply = if s.cmd = 0x0000#16 then [] else s.replyOf (s.cfg.kindOf s.cmd) := by
  unfold State.shtReply
  split_ifs
  · rfl
  · split <;> simp_all only [State.replyOf] <;> rfl

/-- R296: a cleared latch and a code without a reply offer nothing. -/
theorem State.shtReply_eq_nil
    (h : s.cmd = 0x0000#16 ∨ s.cfg.kindOf s.cmd ∉ [some Kind.measure, some .readSerial, some .readStatus]) :
    s.shtReply = [] := by
  rw [State.shtReply_eq]
  obtain hzero | hkind := h
  · rw [if_pos hzero]
  · rw [State.replyOf_eq_nil s hkind, ite_self]

/-- In an accepted configuration the latched code's kind alone selects the reply. -/
theorem Ready.shtReply_eq (h : Ready Family.isSensirion s) : s.shtReply = s.replyOf (s.cfg.kindOf s.cmd) := by
  rw [State.shtReply_eq]
  split_ifs with hzero
  · rw [hzero, Config.kindOf_zero h.family h.config]
    rfl
  · rfl

/-- The reply is a function of the block's state. -/
theorem SameBlock.shtReply_eq (h : SameBlock s t) : s.shtReply = t.shtReply := (congrArg State.shtReply h :)

/-- Every read of a ready Sensirion state completes. -/
theorem exec_shtBusRead_ready (h : Ready Family.isSensirion s) (n : Option Nat) :
    exec (.shtBusRead n) s = .next (s.afterRead s.shtReply s.consume.cmd n) := by
  have hnext := (exec_shtBusRead n s).trans (onFamily_ready h.config h.family)
  rwa [shtBusRead_next hnext] at hnext

/-- A read offers the reply of the latched code's kind. -/
theorem exists_shtBusRead_offers (h : Ready Family.isSensirion s) (n : Option Nat) :
    ∃ t, exec (.shtBusRead n) s = .next t ∧ t.offered = s.replyOf (s.cfg.kindOf s.cmd) :=
  ⟨_, exec_shtBusRead_ready h n, h.shtReply_eq⟩

/-- Settles O39: the read completes, and each clause is the reply of the kind it names. -/
theorem shtBusReadReplies : Obligations.ShtBusReadReplies := by
  intro s n hready
  have hreply : ∀ {k}, s.cfg.kindOf s.cmd = k → s.shtReply = s.replyOf k := fun hk => hk ▸ hready.shtReply_eq
  exact ⟨_, exec_shtBusRead_ready hready n, fun _ hk => hreply hk, fun _ hk => hreply hk, fun _ hk => hreply hk,
    State.shtReply_eq_nil, s.consume_cmd, rfl, rfl⟩

/-- R297: what a read leaves in the latch. -/
theorem shtBusRead_cmd {n : Option Nat} (h : exec (.shtBusRead n) s = .next t) :
    t.cmd = if s.cfg.consumeOnRead then 0x0000#16 else s.cmd := by
  rw [shtBusRead_next h]
  exact s.consume_cmd

/-- Settles O46: the second read's reply is that of a cleared latch, or of a block the first read did not change. -/
theorem shtSecondRead : Obligations.ShtSecondRead := by
  intro s t u n n' hfirst hsecond
  have htcmd := shtBusRead_cmd hfirst
  have hucmd := shtBusRead_cmd hsecond
  have ht := shtBusRead_next hfirst
  have hcfg : t.cfg = s.cfg := by rw [ht]; rfl
  have hoffered : u.offered = t.shtReply := by rw [shtBusRead_next hsecond, State.afterRead_offered]
  rw [hcfg] at hucmd
  refine ⟨fun hconsume => ?consumed, fun hkeep => ?kept⟩
  case consumed =>
    rw [if_pos hconsume] at htcmd hucmd
    exact ⟨htcmd, hucmd, hoffered.trans (State.shtReply_eq_nil (.inl htcmd))⟩
  case kept =>
    rw [if_neg (by simp [hkeep])] at htcmd hucmd
    have hlatch : s.consume.cmd = s.cmd := by rw [State.consume_cmd, hkeep]; rfl
    rw [hlatch] at ht
    have hsame : SameBlock t s := ht ▸ s.sameBlock_afterRead _ n
    refine ⟨htcmd, hucmd.trans htcmd, ?_⟩
    rw [hoffered, hsame.shtReply_eq, ht, State.afterRead_offered]

end Machine
end Sys2Proof

/-! PROOFS. The Sensirion writes (spec/45_sensirion_dispatch R280, R281, R300 to R325). -/

namespace Sys2Proof

/-- R114: the byte count of a command is two on SHT31 and one elsewhere. -/
theorem Config.need_eq (c : Config) : c.need = if c.family = .sht31 then 2 else 1 := by
  cases h : c.family <;> simp [Config.need, h]

namespace Machine

variable {s t u : State}

/-! ### The general write -/

/-- R114: the word of a SHT31 command, high byte first. -/
theorem joinBytes_eq (hi lo : Byte) : joinBytes hi lo = (hi.setWidth 16 <<< 8) ||| lo.setWidth 16 := by
  rw [joinBytes, BitVec.append_def, BitVec.shiftLeftZeroExtend_eq, BitVec.setWidth'_eq]

/-- `b` is a transfer of the right count and carries `code` (R113, R114). -/
def CarriesCode (c : Config) (b : List Byte) (code : Word16) : Prop :=
  b.length = c.need ∧ commandCode c b = code

theorem carriesCode_sht4x {c : Config} (h : c.family = .sht4x) (b0 : Byte) :
    CarriesCode c [b0] (b0.setWidth 16) := by
  simp [CarriesCode, commandCode, zext16, Config.need_eq, h]

theorem carriesCode_sht31 {c : Config} (h : c.family = .sht31) (b0 b1 : Byte) :
    CarriesCode c [b0, b1] ((b0.setWidth 16 <<< 8) ||| b1.setWidth 16) := by
  simp [CarriesCode, commandCode, joinBytes_eq, Config.need_eq, h]

/-- The model's effect on STATUS is R281's. -/
theorem statusEffect_eq (c : Config) (k : Kind) (st : Word16) : statusEffect c k st = Spec.statusAfter c st k := by
  cases k <;> rfl

/-- R281: a kind's effect is on STATUS alone, and on SHT31 alone. -/
theorem State.effect_eq (s : State) (k : Kind) :
    s.effect k =
      { s with status := if s.cfg.family = .sht31 then Spec.statusAfter s.cfg s.status k else s.status } := by
  rw [← statusEffect_eq, ← State.effect_status]
  unfold State.effect
  split <;> rfl

/-- R280: a code of no kind is latched and noted. -/
theorem State.begin_command_unknown {code : Word16} (h : s.cfg.kindOf code = none) :
    s.begin.command code = Spec.quiet { s with cmd := code } [.unknownCommand] := by
  rw [State.command, State.begin_cfg, h]
  rfl

/-- R280, R281: a code of a kind is latched and has the kind's effect. -/
theorem State.begin_command_known {code : Word16} {k : Kind} (h : s.cfg.kindOf code = some k) :
    s.begin.command code = Spec.quiet
      { s with
        cmd := code
        status := if s.cfg.family = .sht31 then Spec.statusAfter s.cfg s.status k else s.status } [] := by
  rw [State.command, State.begin_cfg, h]
  exact State.effect_eq _ k

theorem exec_shtBusWrite (b : List Byte) (s : State) :
    exec (.shtBusWrite b) s = onFamily Family.isSensirion s fun s =>
      if b.length ≠ s.cfg.need then (s.latch 0x0000#16).note [.badCount] else s.command (commandCode s.cfg b) := rfl

/-- R280, R333: the count is looked at first. -/
theorem exec_shtBusWrite_badCount (h : Ready Family.isSensirion s) {b : List Byte} (hb : b.length ≠ s.cfg.need) :
    exec (.shtBusWrite b) s = .next (Spec.quiet { s with cmd := 0x0000#16 } [.badCount]) := by
  rw [exec_shtBusWrite, onFamily_ready h.config h.family, State.begin_cfg, if_pos hb]
  rfl

/-- R280: a transfer of the right count runs as the code it carries. -/
theorem exec_shtBusWrite_code (h : Ready Family.isSensirion s) {b : List Byte} {code : Word16}
    (hb : CarriesCode s.cfg b code) : exec (.shtBusWrite b) s = .next (s.begin.command code) := by
  obtain ⟨hcount, rfl⟩ := hb
  rw [exec_shtBusWrite, onFamily_ready h.config h.family, State.begin_cfg, if_neg (not_not.2 hcount)]

/-- Settles O38: on either family the transfer of the right count carries its code, whose kind decides the effect. -/
theorem shtBusWriteLatches : Obligations.ShtBusWriteLatches := by
  intro s b hready
  refine ⟨fun hb => exec_shtBusWrite_badCount hready (by rwa [Config.need_eq]), fun code htransfer => ?_⟩
  have hcode : CarriesCode s.cfg b code := by
    obtain ⟨hf, b0, rfl, rfl⟩ | ⟨hf, b0, b1, rfl, rfl⟩ := htransfer
    · exact carriesCode_sht4x hf b0
    · exact carriesCode_sht31 hf b0 b1
  rw [exec_shtBusWrite_code hready hcode]
  exact ⟨fun hk => congrArg _ (State.begin_command_unknown hk), fun k hk => congrArg _ (State.begin_command_known hk)⟩

/-! ### The writes without a table command -/

theorem exec_shtNop (h : Ready Family.isSensirion s) (code : Word16) :
    exec (.shtNop code) s = .next (Spec.quiet { s with cmd := code } []) :=
  onFamily_ready (body := fun s => s.latch code) h.config h.family

theorem exec_shtUnrecognized (h : Ready Family.isSensirion s) (code : Word16) :
    exec (.shtUnrecognized code) s = .next (Spec.quiet { s with cmd := code } [.unknownCommand]) :=
  onFamily_ready (body := fun s => (s.latch code).note [.unknownCommand]) h.config h.family

theorem exec_shtInvalidCount (h : Ready Family.isSensirion s) (b : List Byte) :
    exec (.shtInvalidCount b) s = .next (Spec.quiet { s with cmd := 0x0000#16 } [.badCount]) :=
  onFamily_ready (body := fun s => (s.latch 0x0000#16).note [.badCount]) h.config h.family

/-- A read after an event that left a cleared latch or a code without a reply offers nothing. -/
theorem read_after_offers_nothing {i : Instr} {s' : State} (hi : exec i s = .next s')
    (hquiet : s'.cmd = 0x0000#16 ∨
      s'.cfg.kindOf s'.cmd ∉ [some Kind.measure, some .readSerial, some .readStatus])
    {n : Option Nat} (ht : exec i s = .next t) (hu : exec (.shtBusRead n) t = .next u) : u.offered = [] := by
  obtain rfl : s' = t := by simpa [hi] using ht
  rw [shtBusRead_next hu, State.afterRead_offered, State.shtReply_eq_nil hquiet]

/-- Settles O45: the whole next states; neither a NOP, nor an unknown code, nor the cleared latch has a reply. -/
theorem shtWritesWithoutCommand : Obligations.ShtWritesWithoutCommand := by
  intro s code b hready
  have hnop := exec_shtNop hready code
  have hunknown := exec_shtUnrecognized hready code
  have hcount := exec_shtInvalidCount hready b
  refine ⟨hnop, hunknown, hcount, fun i hi hw n t u ht hu => ?_⟩
  simp only [List.mem_cons, List.not_mem_nil, or_false] at hi
  obtain rfl | rfl | rfl := hi
  · have hkind : s.cfg.kindOf code = some .nop := eq_of_beq (Bool.and_eq_true_iff.1 hw).2
    exact read_after_offers_nothing hnop (.inr (by simp [Spec.quiet, hkind])) ht hu
  · have hkind : s.cfg.kindOf code = none := Option.isNone_iff_eq_none.1 (Bool.and_eq_true_iff.1 hw).2
    exact read_after_offers_nothing hunknown (.inr (by simp [Spec.quiet, hkind])) ht hu
  · exact read_after_offers_nothing hcount (.inl rfl) ht hu

/-! ### The commands of the default tables -/

/-- R300 to R310: every row of SHT4x latches its code and does nothing else. -/
theorem exec_sht4xRow (h : Ready isSht4x s) {r : CommandRow} (hr : r ∈ sht4xRows) :
    exec r.instr s = .next (Spec.quiet { s with cmd := r.code } []) := by
  have hrun : exec r.instr s = onFamily isSht4x s fun s => s.latch r.code := by
    simp only [sht4xRows, List.mem_cons, List.not_mem_nil, or_false] at hr
    rcases hr with rfl | rfl | rfl | rfl | rfl | rfl | rfl | rfl | rfl | rfl | rfl <;> rfl
  exact hrun.trans (onFamily_ready h.config h.family)

/-- R311 to R322: every row of SHT31 latches its code and has its kind's effect on STATUS. -/
theorem exec_sht31Row (h : Ready isSht31 s) {r : CommandRow} (hr : r ∈ sht31Rows) :
    exec r.instr s =
      .next (Spec.quiet { s with cmd := r.code, status := Spec.statusAfter s.cfg s.status r.kind } []) := by
  have hrun : exec r.instr s = onFamily isSht31 s fun s =>
      { s.latch r.code with status := Spec.statusAfter s.cfg s.status r.kind } := by
    simp only [sht31Rows, List.mem_cons, List.not_mem_nil, or_false] at hr
    rcases hr with rfl | rfl | rfl | rfl | rfl | rfl | rfl | rfl | rfl | rfl | rfl | rfl <;> rfl
  exact hrun.trans (onFamily_ready h.config h.family)

/-- R290: a read after a latched code of kind `k` offers the kind's reply. -/
theorem read_of_latched (h : Ready Family.isSensirion s) {code : Word16} {k : Kind} (hk : s.cfg.kindOf code = some k)
    (n : Option Nat) :
    ∃ u, exec (.shtBusRead n) (Spec.quiet { s with cmd := code } []) = .next u ∧ u.offered = s.replyOf (some k) :=
  hk ▸ exists_shtBusRead_offers (h.of_cfg_eq (t := Spec.quiet { s with cmd := code } []) rfl) n

/-- A row that `p` picks stands in the list of the rows' commands and codes that `p` picks. -/
theorem exists_row_of_mem {α : Type} {rows : List CommandRow} {p : CommandRow → Bool} {f : CommandRow → α} {a : α}
    (h : a ∈ (rows.filter p).map f) : ∃ r ∈ rows, p r = true ∧ f r = a := by
  obtain ⟨r, hr, hf⟩ := List.mem_map.1 h
  obtain ⟨hmem, hp⟩ := List.mem_filter.1 hr
  exact ⟨r, hmem, hp, hf⟩

/-- Settles O40: the nine commands are the SHT4x rows of kind MEASURE. -/
theorem sht4xMeasureCommands : Obligations.Sht4xMeasureCommands := by
  intro i code hi s hready
  obtain ⟨r, hr, -, hrow⟩ :=
    exists_row_of_mem (rows := sht4xRows) (p := (·.kind == .measure)) (f := fun r => (r.instr, r.code)) hi
  cases hrow
  exact ⟨exec_sht4xRow hready hr, read_of_latched hready.sensirion_of_sht4x⟩

/-- Settles O41: the two rows and the replies of their kinds. -/
theorem sht4xSerialAndSoftReset : Obligations.Sht4xSerialAndSoftReset := by
  intro s hready
  have hsht := hready.sensirion_of_sht4x
  exact ⟨exec_sht4xRow hready (r := ⟨0x0089#16, .readSerial, .sht4xReadSerial⟩) (by decide),
    exec_sht4xRow hready (r := ⟨0x0094#16, .softReset, .sht4xSoftReset⟩) (by decide),
    read_of_latched hsht, read_of_latched hsht⟩

/-- Settles O42: the six commands are the SHT31 rows of kind MEASURE, which has no effect on STATUS. -/
theorem sht31MeasureCommands : Obligations.Sht31MeasureCommands := by
  intro i code hi s hready
  obtain ⟨⟨code', k, i'⟩, hr, hkind, hrow⟩ :=
    exists_row_of_mem (rows := sht31Rows) (p := (·.kind == .measure)) (f := fun r => (r.instr, r.code)) hi
  cases hrow
  obtain rfl : k = .measure := eq_of_beq hkind
  exact ⟨exec_sht31Row hready hr, read_of_latched hready.sensirion_of_sht31⟩

/-- Settles O43: the two rows and the replies of their kinds. -/
theorem sht31SerialAndStatus : Obligations.Sht31SerialAndStatus := by
  intro s hready
  have hsht := hready.sensirion_of_sht31
  exact ⟨exec_sht31Row hready (r := ⟨0x3780#16, .readSerial, .sht31ReadSerial⟩) (by decide),
    exec_sht31Row hready (r := ⟨0xF32D#16, .readStatus, .sht31ReadStatus⟩) (by decide),
    read_of_latched hsht, read_of_latched hsht⟩

/-- Settles O44: the four commands are the SHT31 rows of a kind that selects no reply. -/
theorem sht31StatusCommands : Obligations.Sht31StatusCommands := by
  intro i code k hi s hready
  obtain ⟨r, hr, hkind, hrow⟩ := exists_row_of_mem (rows := sht31Rows)
    (p := fun r => decide (some r.kind ∉ [some Kind.measure, some .readSerial, some .readStatus]))
    (f := fun r => (r.instr, r.code, r.kind)) hi
  cases hrow
  have hnext := exec_sht31Row hready hr
  refine ⟨hnext, fun htable n t u ht hu => read_after_offers_nothing hnext (.inr ?_) ht hu⟩
  exact htable ▸ of_decide_eq_true hkind

end Machine
end Sys2Proof

/-! PROOFS. What a step does not read of the state (spec/60_exceptions R334) and the calls it refuses (R335). -/

namespace Sys2Proof.Machine

variable {ok : Family → Bool} {s : State} {v : HostValue}

/-! ### Host calls without a finite argument -/

/-- R335: the argument is looked at before the configuration and the family. -/
theorem onHostCall_of_not_finite (h : v.isFinite = false) {body : Number → State → State} :
    onHostCall ok v s body = .refused .nonFiniteArgument := by
  cases v with
  | finite q => cases h
  | nan | posInf | negInf => rfl

/-- Settles O14: each of the four host calls stands behind the guard that refuses a non-finite argument. -/
theorem nonFiniteRefused : Obligations.NonFiniteRefused := fun _ _ hv =>
  ⟨onHostCall_of_not_finite hv, onHostCall_of_not_finite hv, onHostCall_of_not_finite hv, onHostCall_of_not_finite hv⟩

/-! ### The outputs of earlier events -/

/-- R20: an event's body already starts from `State.begin`, whatever the outputs were. -/
theorem onFamily_begin (body : State → State) : onFamily ok s.begin body = onFamily ok s body := rfl

theorem onHostCall_begin (body : Number → State → State) : onHostCall ok v s.begin body = onHostCall ok v s body := by
  cases v with
  | finite q => exact onFamily_begin (body q)
  | nan | posInf | negInf => rfl

/-- No instruction reads what earlier events put out or noted. -/
theorem exec_begin (i : Instr) (s : State) : exec i s.begin = exec i s := by
  cases i with
  | bme280SetT | bme280SetH | shtSetT | shtSetH => exact onHostCall_begin _
  | _ =>
    dsimp only [exec]
    exact onFamily_begin _

theorem powerCycle_begin (s : State) : powerCycle s.begin = powerCycle s := rfl

theorem step_of_event {e : Event} {rest : List Input} (h : s.input = .event e :: rest) :
    step s = exec (decode s.cfg e) { s with input := rest } := by
  simp [step, nextInput, h]

theorem step_of_powerCycle {rest : List Input} (h : s.input = .powerCycle :: rest) :
    step s = powerCycle { s with input := rest } := by
  simp [step, nextInput, h]

/-- A step that runs an arrival clears the outputs itself; only an idle step would keep them. -/
theorem step_begin (h : s.input ≠ []) : step s.begin = step s := by
  obtain ⟨arrival, rest, hinput⟩ := List.exists_cons_of_ne_nil h
  cases arrival with
  | event e =>
    rw [step_of_event hinput, step_of_event (s := s.begin) hinput]
    exact exec_begin _ { s with input := rest }
  | powerCycle =>
    rw [step_of_powerCycle hinput, step_of_powerCycle (s := s.begin) hinput]
    exact powerCycle_begin { s with input := rest }

/-- Settles O11: two states that differ in the outputs alone have the same `State.begin`, and a step runs from there. -/
theorem noOutputPersists : Obligations.NoOutputPersists := fun s o r n h =>
  calc step { s with offered := o, received := r, notes := n }
    _ = step s.begin := (step_begin (s := { s with offered := o, received := r, notes := n }) h).symm
    _ = step s := step_begin h

end Sys2Proof.Machine

/-! PROOFS. What power-on leaves in every element (spec/70_reset R362, R363). -/

namespace Sys2Proof

/-! ### The reset image, region by region -/

namespace Config

variable (c : Config)

/-- R362: 0x88 to 0x9F hold the first run of `CAL_IMAGE`. -/
theorem resetByte_calWords (i : Fin 24) : c.resetByte (0x88 + i) = c.cal.words[i] := by
  rw [resetByte, if_pos (by omega), Nat.add_sub_cancel_left]
  simp

/-- R362: 0xE1 to 0xE7 hold the second run of `CAL_IMAGE`. -/
theorem resetByte_calPacked (i : Fin 7) : c.resetByte (0xE1 + i) = c.cal.packed[i] := by
  rw [resetByte, if_neg (by omega), if_neg (by omega), if_neg (by omega), if_pos (by omega), Nat.add_sub_cancel_left]
  simp

/-- R362, R182: 0xF7 to 0xF9 hold what PUT20 makes of `PRESS_ADC`. -/
theorem resetByte_press {i : Nat} (hi : i < 3) :
    c.resetByte (0xF7 + i) = (Machine.put20Bytes c.pressAdc).getD i 0#8 := by
  rw [resetByte, if_neg (by omega), if_neg (by omega), if_neg (by omega), if_neg (by omega), if_neg (by omega),
    if_pos (by omega), Nat.add_sub_cancel_left]

/-- R362: an address that no parameter of R15 names resets to zero. -/
theorem resetByte_of_unnamed {a : Nat} (hwords : ¬ (0x88 ≤ a ∧ a ≤ 0x9F)) (hh1 : a ≠ 0xA1) (hid : a ≠ 0xD0)
    (hpacked : ¬ (0xE1 ≤ a ∧ a ≤ 0xE7)) (hstatus : a ≠ 0xF3) (hpress : ¬ (0xF7 ≤ a ∧ a ≤ 0xF9)) :
    c.resetByte a = 0x00#8 := by
  rw [resetByte, if_neg hwords, if_neg hh1, if_neg hid, if_neg hpacked, if_neg hstatus, if_neg hpress]

/-- R43, R173: `SERIAL` is the frame of its two seeds. -/
theorem serialFrame_toList : c.serialFrame.toList = Machine.Spec.frame [c.serialW0, c.serialW1] := rfl

end Config

namespace Machine

/-- R363: neither the cleared `PS` nor the cleared command latch leaves an address latched. -/
theorem State.powerOn_protocolState (c : Config) : (State.powerOn c).protocolState = .idle := by
  cases hf : c.family <;> simp [State.protocolState, hf]

/-- Settles O51: every byte reads as the reset image, taken region by region; the other fields are `State.powerOn`'s. -/
theorem powerOnState : Obligations.PowerOnState := fun c =>
  ⟨c.resetByte_calWords, rfl, c.resetByte_calPacked, rfl, rfl,
    c.resetByte_press (i := 0) (by decide), c.resetByte_press (i := 1) (by decide),
    c.resetByte_press (i := 2) (by decide),
    fun _ _ => c.resetByte_of_unnamed,
    State.powerOn_ca c, State.powerOn_ps c, State.powerOn_cmd c, State.powerOn_tRaw c, State.powerOn_hRaw c,
    State.powerOn_status c, c.serialFrame_toList, State.powerOn_protocolState c, fun _ => rfl⟩

end Machine
end Sys2Proof

/-! PROOFS. The decoder and the encoder against each other (spec/30_encoding R110 to R119, R123 to R125). -/

namespace Sys2Proof

/-! ### The rows of the command tables -/

/-- The rows of R116 or R117 that the decoder of a Sensirion configuration looks codes up in. -/
def Config.commandRows (c : Config) : List CommandRow := if c.family = .sht31 then sht31Rows else sht4xRows

namespace Machine

variable {c : Config} {b : List Byte} {code : Word16} {r : CommandRow}

/-- A property that every row of both tables has, each with its family's. -/
theorem forall_commandRows {c : Config} {P : CommandRow → Prop} (hr : r ∈ c.commandRows)
    (h31 : c.family = .sht31 → ∀ r ∈ sht31Rows, P r) (h4x : c.family ≠ .sht31 → ∀ r ∈ sht4xRows, P r) : P r := by
  unfold Config.commandRows at hr
  split_ifs at hr with hf
  · exact h31 hf r hr
  · exact h4x hf r hr

theorem rowOf_sht4xRows : ∀ r ∈ sht4xRows, rowOf sht4xRows r.code r.kind = some r := by decide

theorem rowOf_sht31Rows : ∀ r ∈ sht31Rows, rowOf sht31Rows r.code r.kind = some r := by decide

theorem sht4xRows_kind_ne_nop : ∀ r ∈ sht4xRows, r.kind ≠ .nop := by decide

theorem sht31Rows_kind_ne_nop : ∀ r ∈ sht31Rows, r.kind ≠ .nop := by decide

/-- R116: a row is well formed where the table has its code with its kind. -/
theorem wellFormed_sht4xRow (c : Config) (hr : r ∈ sht4xRows) :
    r.instr.wellFormed c = c.admits .sht4x r.code r.kind := by
  simp only [sht4xRows, List.mem_cons, List.not_mem_nil, or_false] at hr
  rcases hr with rfl | rfl | rfl | rfl | rfl | rfl | rfl | rfl | rfl | rfl | rfl <;> rfl

/-- R117: a row is well formed where the table has its code with its kind. -/
theorem wellFormed_sht31Row (c : Config) (hr : r ∈ sht31Rows) :
    r.instr.wellFormed c = c.admits .sht31 r.code r.kind := by
  simp only [sht31Rows, List.mem_cons, List.not_mem_nil, or_false] at hr
  rcases hr with rfl | rfl | rfl | rfl | rfl | rfl | rfl | rfl | rfl | rfl | rfl | rfl <;> rfl

/-- R113: a SHT4x row is sent as the low byte of its code. -/
theorem encode_sht4xRow (c : Config) (hr : r ∈ sht4xRows) : encode c r.instr = .busWrite [loByte r.code] := by
  simp only [sht4xRows, List.mem_cons, List.not_mem_nil, or_false] at hr
  rcases hr with rfl | rfl | rfl | rfl | rfl | rfl | rfl | rfl | rfl | rfl | rfl <;> rfl

/-- R114: a SHT31 row is sent as its code, high byte first. -/
theorem encode_sht31Row (c : Config) (hr : r ∈ sht31Rows) :
    encode c r.instr = .busWrite [hiByte r.code, loByte r.code] := by
  simp only [sht31Rows, List.mem_cons, List.not_mem_nil, or_false] at hr
  rcases hr with rfl | rfl | rfl | rfl | rfl | rfl | rfl | rfl | rfl | rfl | rfl | rfl <;> rfl

theorem rowOf_commandRows (hr : r ∈ c.commandRows) : rowOf c.commandRows r.code r.kind = some r := by
  refine forall_commandRows (P := fun r => rowOf c.commandRows r.code r.kind = some r) hr ?_ ?_ <;> intro hf
  · simpa only [Config.commandRows, if_pos hf] using rowOf_sht31Rows
  · simpa only [Config.commandRows, if_neg hf] using rowOf_sht4xRows

theorem commandRows_kind_ne_nop (hr : r ∈ c.commandRows) : r.kind ≠ .nop :=
  forall_commandRows hr (fun _ => sht31Rows_kind_ne_nop) fun _ => sht4xRows_kind_ne_nop

/-- The row found for a code and a kind is a row with that code and that kind. -/
theorem rowOf_some {rows : List CommandRow} {k : Kind} (h : rowOf rows code k = some r) :
    r ∈ rows ∧ r.code = code ∧ r.kind = k := by
  obtain ⟨hcode, hkind⟩ := Bool.and_eq_true_iff.1 (List.find?_some h :)
  exact ⟨List.mem_of_find?_eq_some h, eq_of_beq hcode, eq_of_beq hkind⟩

/-! ### The code a transfer carries -/

@[simp] theorem loByte_zext16 (b : Byte) : loByte (zext16 b) = b := by
  rw [loByte, zext16, BitVec.extractLsb'_setWidth_of_le (by omega), BitVec.extractLsb'_eq_self]

@[simp] theorem hiByte_joinBytes (hi lo : Byte) : hiByte (joinBytes hi lo) = hi := BitVec.extractLsb'_append_eq_left

@[simp] theorem loByte_joinBytes (hi lo : Byte) : loByte (joinBytes hi lo) = lo := BitVec.extractLsb'_append_eq_right

@[simp] theorem joinBytes_hiByte_loByte (w : Word16) : joinBytes (hiByte w) (loByte w) = w :=
  BitVec.extractLsb'_append_extractLsb' (w := 8) (len := 8)

theorem zext16_toNat_lt (b : Byte) : (zext16 b).toNat < 256 := by
  simp only [zext16, BitVec.toNat_setWidth]
  omega

/-- R113: a code below 256 is its low byte. -/
theorem zext16_loByte {w : Word16} (h : w.toNat < 256) : zext16 (loByte w) = w := by
  apply BitVec.eq_of_toNat_eq
  simp only [zext16, loByte, BitVec.toNat_setWidth, BitVec.extractLsb'_toNat]
  omega

theorem eq_sht31_or_eq_sht4x {f : Family} (h : f.isSensirion = true) : f = .sht31 ∨ f = .sht4x := by
  cases f with
  | bme280 => cases h
  | sht31 => exact .inl rfl
  | sht4x => exact .inr rfl

/-- R113, R114: a Sensirion transfer of the right count is one byte on SHT4x and two on SHT31. -/
theorem length_eq_need_iff (hf : c.family.isSensirion = true) :
    b.length = c.need ↔
      (c.family = .sht31 ∧ ∃ b0 b1, b = [b0, b1]) ∨ (c.family = .sht4x ∧ ∃ b0, b = [b0]) := by
  obtain h | h := eq_sht31_or_eq_sht4x hf
  · simp [Config.need, h, List.length_eq_two]
  · simp [Config.need, h, List.length_eq_one_iff]

/-- R113, R114: the bytes that carry a code are the bytes it is sent as, and the code fits them. -/
theorem CarriesCode.codeBytes_eq (hf : c.family.isSensirion = true) (h : CarriesCode c b code) :
    codeBytes c code = b ∧ c.codeFits code = true := by
  obtain ⟨hcount, rfl⟩ := h
  obtain ⟨h31, b0, b1, rfl⟩ | ⟨h4x, b0, rfl⟩ := (length_eq_need_iff hf).1 hcount
  · simp [codeBytes, commandCode, Config.codeFits, Config.need, h31]
  · simp [codeBytes, commandCode, Config.codeFits, Config.need, h4x, zext16_toNat_lt]

/-- R113, R114: a code that fits is carried by the bytes it is sent as. -/
theorem carriesCode_codeBytes (h : c.codeFits code = true) : CarriesCode c (codeBytes c code) code := by
  unfold Config.codeFits at h
  cases hf : c.family with
  | bme280 => simp [hf] at h
  | sht31 => simp [CarriesCode, codeBytes, commandCode, Config.need, hf]
  | sht4x =>
    have hlt : code.toNat < 256 := by simpa [hf] using h
    simp [CarriesCode, codeBytes, commandCode, Config.need, hf, zext16_loByte hlt]

theorem isSensirion_of_codeFits (h : c.codeFits code = true) : c.family.isSensirion = true := by
  cases hf : c.family with
  | bme280 => simp [Config.codeFits, hf] at h
  | sht31 | sht4x => rfl

/-! ### What a Sensirion write decodes to -/

/-- R119, R124: a transfer of the wrong count. -/
theorem decode_badCount (hf : c.family.isSensirion = true) (hb : b.length ≠ c.need) :
    decode c (.busWrite b) = .shtInvalidCount b := by
  obtain h | h := eq_sht31_or_eq_sht4x hf
  all_goals
    simp only [decode, decodeWrite, h]
    split
    · simp [Config.need, h] at hb
    all_goals rfl

/-- R124: a transfer of the right count is what its code is. -/
theorem decode_code (hf : c.family.isSensirion = true) (h : CarriesCode c b code) :
    decode c (.busWrite b) = decodeCode c c.commandRows code b := by
  obtain ⟨hcount, rfl⟩ := h
  obtain ⟨h31, b0, b1, rfl⟩ | ⟨h4x, b0, rfl⟩ := (length_eq_need_iff hf).1 hcount
  · simp [decode, decodeWrite, commandCode, Config.commandRows, Config.need, h31]
  · simp [decode, decodeWrite, commandCode, Config.commandRows, Config.need, h4x]

/-- R124: the cases of a code. -/
inductive CodeCase (c : Config) (code : Word16) (b : List Byte) : Instr → Prop
  | unrecognized (h : c.kindOf code = none) : CodeCase c code b (.shtUnrecognized code)
  | nop (h : c.kindOf code = some .nop) : CodeCase c code b (.shtNop code)
  | row (r : CommandRow) (hr : r ∈ c.commandRows) (hcode : r.code = code) (h : c.kindOf code = some r.kind) :
    CodeCase c code b r.instr
  | general (k : Kind) (h : c.kindOf code = some k) : CodeCase c code b (.shtBusWrite b)

theorem decodeCode_case (c : Config) (code : Word16) (b : List Byte) :
    CodeCase c code b (decodeCode c c.commandRows code b) := by
  unfold decodeCode
  split
  next h => exact .unrecognized h
  next h => exact .nop h
  next k _ h =>
    split
    next r hr =>
      obtain ⟨hmem, hcode, rfl⟩ := rowOf_some hr
      exact .row r hmem hcode h
    next => exact .general k h

theorem decodeCode_unrecognized {rows : List CommandRow} (h : c.kindOf code = none) :
    decodeCode c rows code b = .shtUnrecognized code := by
  simp [decodeCode, h]

theorem decodeCode_nop {rows : List CommandRow} (h : c.kindOf code = some .nop) :
    decodeCode c rows code b = .shtNop code := by
  simp [decodeCode, h]

theorem decodeCode_row (hr : r ∈ c.commandRows) (h : c.kindOf r.code = some r.kind) :
    decodeCode c c.commandRows r.code b = r.instr := by
  have hrow := rowOf_commandRows hr
  have hnop := commandRows_kind_ne_nop hr
  unfold decodeCode
  split <;> simp_all

/-- R113, R114: a row is sent as the bytes of its code. -/
theorem encode_commandRow (hr : r ∈ c.commandRows) : encode c r.instr = .busWrite (codeBytes c r.code) := by
  refine forall_commandRows (P := fun r => encode c r.instr = .busWrite (codeBytes c r.code)) hr
    (fun hf r hr => ?_) fun hf r hr => ?_
  · rw [encode_sht31Row c hr, codeBytes, hf]
  · rw [encode_sht4xRow c hr, codeBytes]
    split <;> simp_all

/-- R116, R117: a row of the family's list is well formed where the table has it. -/
theorem wellFormed_commandRow (hf : c.family.isSensirion = true) (hr : r ∈ c.commandRows) :
    r.instr.wellFormed c = true ↔ c.kindOf r.code = some r.kind := by
  refine forall_commandRows (P := fun r => r.instr.wellFormed c = true ↔ c.kindOf r.code = some r.kind) hr
    (fun h31 r hr => ?_) fun hne r hr => ?_
  · simp [wellFormed_sht31Row c hr, Config.admits, h31]
  · simp [wellFormed_sht4xRow c hr, Config.admits, (eq_sht31_or_eq_sht4x hf).resolve_left hne]

end Machine
end Sys2Proof

/-! PROOFS. Decoding and encoding undo each other, and what an event decodes to (spec/30_encoding sections 1, 2, 5). -/

namespace Sys2Proof.Machine

variable {c : Config} {i : Instr}

/-- R2: an event's family is the BME280 or one that takes commands. -/
theorem isBme280_or_isSensirion (f : Family) : isBme280 f = true ∨ f.isSensirion = true := by
  cases f <;> decide

/-! ### What each kind of event decodes to -/

section Bme280

variable (hf : isBme280 c.family = true)
include hf

/-- R111: on a BME280 a write of no byte is WRITE_EMPTY. -/
theorem decode_writeEmpty : decode c (.busWrite []) = .bme280WriteEmpty := by
  simp only [decode, decodeWrite, eq_of_beq hf]

theorem decode_bme280SetT (v : HostValue) : decode c (.setT v) = .bme280SetT v := by
  simp only [decode, eq_of_beq hf]

theorem decode_bme280SetH (v : HostValue) : decode c (.setH v) = .bme280SetH v := by
  simp only [decode, eq_of_beq hf]

end Bme280

section Sensirion

variable (hf : c.family.isSensirion = true)
include hf

/-- R115: on the Sensirion families a read is BUS_READ. -/
theorem decode_shtBusRead (k : Option Nat) : decode c (.busRead k) = .shtBusRead k := by
  obtain h | h := eq_sht31_or_eq_sht4x hf <;> simp only [decode, h]

theorem decode_shtSetT (v : HostValue) : decode c (.setT v) = .shtSetT v := by
  obtain h | h := eq_sht31_or_eq_sht4x hf <;> simp only [decode, h]

theorem decode_shtSetH (v : HostValue) : decode c (.setH v) = .shtSetH v := by
  obtain h | h := eq_sht31_or_eq_sht4x hf <;> simp only [decode, h]

end Sensirion

/-! ### Decoding what is encoded -/

theorem sht4xRows_code_lt : ∀ r ∈ sht4xRows, r.code.toNat < 256 := by decide

/-- A table row is well formed only in its own family, whose commands have its code's width. -/
theorem commandRow_of_wellFormed {r : CommandRow} (hr : r ∈ sht4xRows ++ sht31Rows) (hw : r.instr.wellFormed c = true) :
    c.family.isSensirion = true ∧ r ∈ c.commandRows ∧ c.codeFits r.code = true := by
  obtain h4x | h31 := List.mem_append.1 hr
  · rw [wellFormed_sht4xRow c h4x] at hw
    have hf : c.family = .sht4x := eq_of_beq (Bool.and_eq_true_iff.1 hw).1
    simp [hf, Config.commandRows, Config.codeFits, Family.isSensirion, h4x, sht4xRows_code_lt r h4x]
  · rw [wellFormed_sht31Row c h31] at hw
    have hf : c.family = .sht31 := eq_of_beq (Bool.and_eq_true_iff.1 hw).1
    simp [hf, Config.commandRows, Config.codeFits, Family.isSensirion, h31]

/-- R116, R117: decoding what a table row is sent as gives the row. -/
theorem decode_encode_commandRow (hi : ∃ r ∈ sht4xRows ++ sht31Rows, r.instr = i) (hw : i.wellFormed c = true) :
    decode c (encode c i) = i := by
  obtain ⟨r, hr, rfl⟩ := hi
  obtain ⟨hf, hmem, hfits⟩ := commandRow_of_wellFormed hr hw
  rw [encode_commandRow hmem, decode_code hf (carriesCode_codeBytes hfits)]
  exact decodeCode_row hmem ((wellFormed_commandRow hf hmem).1 hw)

/-- R124: decoding the bytes of a code that fits them looks the code up. -/
theorem decode_codeBytes {code : Word16} (hfits : c.codeFits code = true) :
    decode c (.busWrite (codeBytes c code)) = decodeCode c c.commandRows code (codeBytes c code) :=
  decode_code (isSensirion_of_codeFits hfits) (carriesCode_codeBytes hfits)

/-- Settles O1, by the instruction: the rows of the command tables together, the other rows each by what its kind of
event decodes to. -/
theorem decodeOfEncode : Obligations.DecodeOfEncode := by
  intro c i hw hcase
  cases i with
  | bme280BusWrite | shtBusWrite => cases hcase
  | bme280WriteEmpty => exact decode_writeEmpty hw
  | bme280Select a => exact decode_select hw a
  | bme280WritePairs a v rest => exact decode_writePairs hw a v rest
  | bme280BusRead k => exact decode_busRead hw k
  | shtBusRead k => exact decode_shtBusRead hw k
  | shtInvalidCount b =>
    obtain ⟨hf, hb⟩ := Bool.and_eq_true_iff.1 hw
    exact decode_badCount hf (bne_iff_ne.1 hb)
  | shtUnrecognized code =>
    obtain ⟨hfits, hk⟩ := Bool.and_eq_true_iff.1 hw
    exact (decode_codeBytes hfits).trans (decodeCode_unrecognized (Option.isNone_iff_eq_none.1 hk))
  | shtNop code =>
    obtain ⟨hfits, hk⟩ := Bool.and_eq_true_iff.1 hw
    exact (decode_codeBytes hfits).trans (decodeCode_nop (eq_of_beq hk))
  | bme280SetT v => exact decode_bme280SetT (Bool.and_eq_true_iff.1 hw).1 v
  | bme280SetH v => exact decode_bme280SetH (Bool.and_eq_true_iff.1 hw).1 v
  | shtSetT v => exact decode_shtSetT (Bool.and_eq_true_iff.1 hw).1 v
  | shtSetH v => exact decode_shtSetH (Bool.and_eq_true_iff.1 hw).1 v
  | _ => exact decode_encode_commandRow (by decide) hw

/-! ### Encoding what is decoded, and its well-formedness -/

/-- A code's instruction is sent as the transfer that carried the code. -/
theorem CodeCase.encode_eq {code : Word16} {b : List Byte} (h : CodeCase c code b i)
    (hbytes : codeBytes c code = b) : encode c i = .busWrite b := by
  cases h with
  | unrecognized | nop => exact congrArg Event.busWrite hbytes
  | row r hr hcode => rw [encode_commandRow hr, hcode, hbytes]
  | general => rfl

/-- A code's instruction is well formed. -/
theorem CodeCase.wellFormed {code : Word16} {b : List Byte} (h : CodeCase c code b i)
    (hf : c.family.isSensirion = true) (hfits : c.codeFits code = true) : i.wellFormed c = true := by
  cases h with
  | unrecognized hk => simp [Instr.wellFormed, hfits, hk]
  | nop hk => simp [Instr.wellFormed, hfits, hk]
  | row r hr hcode hk => exact (wellFormed_commandRow hf hr).2 (hcode ▸ hk)
  | general => exact hf

theorem encode_decode_bmeWrite (hf : isBme280 c.family = true) (b : List Byte) :
    encode c (decode c (.busWrite b)) = .busWrite b := by
  match b with
  | [] => rw [decode_writeEmpty hf, encode]
  | [a] => rw [decode_select hf, encode]
  | a :: v :: rest => rw [decode_writePairs hf, encode]

theorem encode_decode_shtWrite (hf : c.family.isSensirion = true) (b : List Byte) :
    encode c (decode c (.busWrite b)) = .busWrite b := by
  by_cases hb : b.length = c.need
  · have hcode : CarriesCode c b (commandCode c b) := ⟨hb, rfl⟩
    rw [decode_code hf hcode]
    exact (decodeCode_case c _ b).encode_eq (hcode.codeBytes_eq hf).1
  · rw [decode_badCount hf hb, encode]

/-- Settles O2: every transfer by its count and its code, the other events by the family. -/
theorem encodeOfDecode : Obligations.EncodeOfDecode := by
  intro c e
  obtain hf | hf := isBme280_or_isSensirion c.family
  · cases e with
    | busWrite b => exact encode_decode_bmeWrite hf b
    | busRead k => rw [decode_busRead hf, encode]
    | setT v => rw [decode_bme280SetT hf, encode]
    | setH v => rw [decode_bme280SetH hf, encode]
  · cases e with
    | busWrite b => exact encode_decode_shtWrite hf b
    | busRead k => rw [decode_shtBusRead hf, encode]
    | setT v => rw [decode_shtSetT hf, encode]
    | setH v => rw [decode_shtSetH hf, encode]

theorem wellFormed_decode_bmeWrite (hf : isBme280 c.family = true) (b : List Byte) :
    (decode c (.busWrite b)).wellFormed c = true := by
  match b with
  | [] => rw [decode_writeEmpty hf]; exact hf
  | [a] => rw [decode_select hf]; exact hf
  | a :: v :: rest => rw [decode_writePairs hf]; exact hf

theorem wellFormed_decode_shtWrite (hf : c.family.isSensirion = true) (b : List Byte) :
    (decode c (.busWrite b)).wellFormed c = true := by
  by_cases hb : b.length = c.need
  · have hcode : CarriesCode c b (commandCode c b) := ⟨hb, rfl⟩
    rw [decode_code hf hcode]
    exact (decodeCode_case c _ b).wellFormed hf (hcode.codeBytes_eq hf).2
  · rw [decode_badCount hf hb]
    simp [Instr.wellFormed, hf, hb]

/-- Settles O3: the same cases, each row's conditions met by how the decoder came to it. -/
theorem decodeIsWellFormed : Obligations.DecodeIsWellFormed := by
  intro c e haccepted
  obtain hf | hf := isBme280_or_isSensirion c.family
  · cases e with
    | busWrite b => exact wellFormed_decode_bmeWrite hf b
    | busRead k => rw [decode_busRead hf]; exact hf
    | setT v => rw [decode_bme280SetT hf]; exact Bool.and_eq_true_iff.2 ⟨hf, haccepted⟩
    | setH v => rw [decode_bme280SetH hf]; exact Bool.and_eq_true_iff.2 ⟨hf, haccepted⟩
  · cases e with
    | busWrite b => exact wellFormed_decode_shtWrite hf b
    | busRead k => rw [decode_shtBusRead hf]; exact hf
    | setT v => rw [decode_shtSetT hf]; exact Bool.and_eq_true_iff.2 ⟨hf, haccepted⟩
    | setH v => rw [decode_shtSetH hf]; exact Bool.and_eq_true_iff.2 ⟨hf, haccepted⟩

/-! ### The default tables and the words of the opcode table -/

/-- Settles O4: seven transfers run through the decoder. -/
theorem decodeOfSpecWords : Obligations.DecodeOfSpecWords := by
  unfold Obligations.DecodeOfSpecWords
  decide

theorem shipped_wellFormed (f : Family) : (Config.shipped f).wellFormed = true := by
  cases f with
  | bme280 => rfl
  | sht31 =>
    exact (Config.wellFormed_sensirion rfl).2
      ⟨by decide, by simp [Config.shipped, Config.params, Config.sht31Defaults]⟩
  | sht4x =>
    exact (Config.wellFormed_sensirion rfl).2
      ⟨by decide, by simp [Config.shipped, Config.params, Config.sht4xDefaults]⟩

/-- Settles O5: the tables are the rows as written, and each lookup is over twelve entries. -/
theorem defaultTablesWellFormed : Obligations.DefaultTablesWellFormed :=
  ⟨shipped_wellFormed, rfl, rfl, by decide, by decide, by decide, by decide, by decide, by decide⟩

/-- R126: the decoder asks of a configuration its family and the kinds of its codes. -/
theorem decodeWrite_congr {c' : Config} (hf : c.family = c'.family) (hk : c.kindOf = c'.kindOf) (b : List Byte) :
    decodeWrite c b = decodeWrite c' b := by
  simp only [decodeWrite, decodeCode, hf, hk]

/-- Log 22: a placed word finds the default tables. -/
theorem withFetchWord_kindOf (s : State) (nbits w : Nat) :
    (s.withFetchWord nbits w).cfg.kindOf = (Config.shipped (tableTransfer nbits w).1).kindOf := by
  funext code
  have htable : (s.withFetchWord nbits w).cfg.params.cmdTable =
      (Config.shipped (tableTransfer nbits w).1).params.cmdTable := by
    simp only [State.withFetchWord, Config.params, Config.shipped]
    split <;> rfl
  rw [Config.kindOf, Config.kindOf, htable]

/-- Settles O6: the placed transfer is the oldest arrival, and it decodes by the family and the default tables alone. -/
theorem fetchWordRunsTableWord : Obligations.FetchWordRunsTableWord := by
  intro s nbits w
  refine ⟨_, rfl, ?_⟩
  have hdecode := decodeWrite_congr (c := (s.withFetchWord nbits w).cfg)
    (c' := Config.shipped (tableTransfer nbits w).1) rfl (withFetchWord_kindOf s nbits w) (tableTransfer nbits w).2
  rw [step_of_event (s := s.withFetchWord nbits w) rfl, ← hdecode]
  rfl

end Sys2Proof.Machine

/-! PROOFS. The general write rules and the rules of their cases agree (spec/44_bme280_bus R250 to R253,
spec/45_sensirion_dispatch R280). -/

namespace Sys2Proof.Machine

variable {s t : State} {i : Instr} {b : List Byte} {code : Word16}

/-- R251: the empty write runs as the general write of no byte. -/
theorem exec_bme280WriteEmpty_eq_busWrite (s : State) : exec .bme280WriteEmpty s = exec (.bme280BusWrite []) s := rfl

/-- R252: a one-byte write runs as the general write of its byte. -/
theorem exec_bme280Select_eq_busWrite (a : Byte) (s : State) :
    exec (.bme280Select a) s = exec (.bme280BusWrite [a]) s := rfl

/-- Settles O19: by the number of bytes, which is what the decoder looks at. -/
theorem bmeGeneralWriteAgrees : Obligations.BmeGeneralWriteAgrees := by
  intro s b hready
  match b with
  | [] => rw [decode_writeEmpty hready.family, exec_bme280WriteEmpty_eq_busWrite]
  | [a] => rw [decode_select hready.family, exec_bme280Select_eq_busWrite]
  | a :: v :: rest => rw [decode_writePairs hready.family, exec_bme280WritePairs_eq_busWrite]

/-- R300 to R322: a row of the family's list latches its code and has its kind's effect. -/
theorem exec_commandRow (h : Ready Family.isSensirion s) {r : CommandRow} (hr : r ∈ s.cfg.commandRows) :
    exec r.instr s = .next (Spec.quiet
      { s with
        cmd := r.code
        status := if s.cfg.family = .sht31 then Spec.statusAfter s.cfg s.status r.kind else s.status } []) := by
  unfold Config.commandRows at hr
  split_ifs at hr ⊢ with hf
  · exact exec_sht31Row ⟨h.config, beq_iff_eq.2 hf⟩ hr
  · exact exec_sht4xRow ⟨h.config, beq_iff_eq.2 ((eq_sht31_or_eq_sht4x h.family).resolve_left hf)⟩ hr

/-- The general rule, on a transfer that carries a code, does what the code's row does. -/
theorem CodeCase.exec_eq (h : CodeCase s.cfg code b i) (hready : Ready Family.isSensirion s)
    (hcode : CarriesCode s.cfg b code) : exec (.shtBusWrite b) s = exec i s := by
  cases h with
  | unrecognized hk =>
    rw [exec_shtBusWrite_code hready hcode, State.begin_command_unknown hk, exec_shtUnrecognized hready]
  | nop hk =>
    rw [exec_shtBusWrite_code hready hcode, State.begin_command_known hk, exec_shtNop hready]
    simp only [Spec.statusAfter, ite_self]
  | row r hr hrow hk =>
    subst hrow
    rw [exec_shtBusWrite_code hready hcode, State.begin_command_known hk, exec_commandRow hready hr]
  | general => rfl

/-- Settles O37: a wrong count is INVALID_COUNT's case; otherwise the cases of the code. -/
theorem shtGeneralWriteAgrees : Obligations.ShtGeneralWriteAgrees := by
  intro s b hready
  by_cases hb : b.length = s.cfg.need
  · have hcode : CarriesCode s.cfg b (commandCode s.cfg b) := ⟨hb, rfl⟩
    rw [decode_code hready.family hcode]
    exact (decodeCode_case _ _ b).exec_eq hready hcode
  · rw [decode_badCount hready.family hb, exec_shtBusWrite_badCount hready hb, exec_shtInvalidCount hready]

end Sys2Proof.Machine

/-! PROOFS. Which instructions an instance runs: the family guard of every row (spec/30_encoding R110, R365). -/

namespace Sys2Proof

/-- R2, R110: the families whose events an instruction stands for. -/
def Instr.families : Instr → Family → Bool
  | .bme280BusWrite _ | .bme280WriteEmpty | .bme280Select _ | .bme280WritePairs _ _ _ | .bme280BusRead _
  | .bme280SetT _ | .bme280SetH _ => Machine.isBme280
  | .sht4xMeasHp | .sht4xMeasMp | .sht4xMeasLp | .sht4xMeasH200Long | .sht4xMeasH200Short | .sht4xMeasH110Long
  | .sht4xMeasH110Short | .sht4xMeasH20Long | .sht4xMeasH20Short | .sht4xReadSerial | .sht4xSoftReset => Machine.isSht4x
  | .sht31MeasHighCs | .sht31MeasMedCs | .sht31MeasLowCs | .sht31MeasHigh | .sht31MeasMed | .sht31MeasLow
  | .sht31ReadSerial | .sht31ReadStatus | .sht31ClearStatus | .sht31SoftReset | .sht31HeaterOn | .sht31HeaterOff =>
    Machine.isSht31
  | .shtBusWrite _ | .shtBusRead _ | .shtInvalidCount _ | .shtUnrecognized _ | .shtNop _ | .shtSetT _ | .shtSetH _ =>
    Family.isSensirion

namespace Machine

variable {s t : State} {i : Instr}

/-- Every instruction runs behind the guard of its own families; a host call's argument is finite where the call is well
formed. -/
theorem exec_guarded_families (i : Instr) (s : State) :
    (∃ body, exec i s = onFamily i.families s body) ∨
      ∃ v body, exec i s = onHostCall i.families v s body ∧ (i.wellFormed s.cfg = true → v.isFinite = true) := by
  cases i with
  | bme280SetT | bme280SetH | shtSetT | shtSetH => exact .inr ⟨_, _, rfl, fun hw => (Bool.and_eq_true_iff.1 hw).2⟩
  | _ =>
    dsimp only [exec]
    exact .inl ⟨_, rfl⟩

/-- An instruction that completes runs in a ready state of its families. -/
theorem exec_next_ready (h : exec i s = .next t) : Ready i.families s := by
  obtain ⟨body, hexec⟩ | ⟨v, body, hexec, -⟩ := exec_guarded_families i s
  · obtain ⟨hc, hf, -⟩ := onFamily_next.1 (hexec ▸ h)
    exact ⟨hc, hf⟩
  · obtain ⟨_, -, hc, hf, -⟩ := onHostCall_next.1 (hexec ▸ h)
    exact ⟨hc, hf⟩

/-- A well-formed instruction is one of the configuration's family. -/
theorem families_of_wellFormed {c : Config} (h : i.wellFormed c = true) : i.families c.family = true := by
  cases i with
  | bme280BusWrite | bme280WriteEmpty | bme280Select | bme280WritePairs | bme280BusRead | shtBusWrite | shtBusRead =>
    exact h
  | shtUnrecognized | shtNop => exact isSensirion_of_codeFits (Bool.and_eq_true_iff.1 h).1
  | _ => exact (Bool.and_eq_true_iff.1 h).1

/-- R330: a well-formed instruction of an accepted configuration completes. -/
theorem exec_completes (hc : s.cfg.wellFormed = true) (hi : i.wellFormed s.cfg = true) : ∃ t, exec i s = .next t := by
  have hf := families_of_wellFormed hi
  obtain ⟨body, hexec⟩ | ⟨v, body, hexec, hfinite⟩ := exec_guarded_families i s
  · exact ⟨_, hexec.trans (onFamily_ready hc hf)⟩
  · cases v with
    | finite q => exact ⟨_, hexec.trans (onHostCall_next.2 ⟨q, rfl, hc, hf, rfl⟩)⟩
    | nan | posInf | negInf => cases hfinite hi

end Machine
end Sys2Proof

/-! PROOFS. What an event that completes leaves of the state (spec/10_state R48), and which instructions complete. -/

namespace Sys2Proof.Machine

variable {s t : State} {i : Instr} {e : Event}

/-- What an event can leave of the state it meets, by the kind of event. -/
inductive Leaves (s : State) : Event → State → Prop
  | bmeWrite (b : List Byte) :
    Leaves s (.busWrite b) (Spec.quiet
      { s with
        x := (s.begin.writePairs b).x
        ca := (s.begin.writePairs b).ca
        ps := if b.length = 0 then s.ps else .addressLatched } [])
  | shtWrite (b : List Byte) (code : Word16) (k : Kind) (classes : List ErrorClass) :
    Leaves s (.busWrite b) (Spec.quiet
      { s with
        cmd := code
        status := if s.cfg.family = .sht31 then Spec.statusAfter s.cfg s.status k else s.status } classes)
  | read (clocks : Option Nat) (reply : List Byte) (cmd : Word16) :
    Leaves s (.busRead clocks) (s.afterRead reply cmd clocks)
  | bmeSetT (v : HostValue) (l : List Byte) (hl : l.length ≤ 3) (classes : List ErrorClass) :
    Leaves s (.setT v) (Spec.quiet { s with x := (s.begin.memWrite 0xFA l).x } classes)
  | bmeSetH (v : HostValue) (l : List Byte) (hl : l.length ≤ 2) (classes : List ErrorClass) :
    Leaves s (.setH v) (Spec.quiet { s with x := (s.begin.memWrite 0xFD l).x } classes)
  | shtSetT (v : HostValue) (w : Word16) (classes : List ErrorClass) :
    Leaves s (.setT v) (Spec.quiet { s with tRaw := w } classes)
  | shtSetH (v : HostValue) (w : Word16) (classes : List ErrorClass) :
    Leaves s (.setH v) (Spec.quiet { s with hRaw := w } classes)

/-- A Sensirion write without an effect on STATUS. -/
theorem Leaves.latch (s : State) (b : List Byte) (code : Word16) (classes : List ErrorClass) :
    Leaves s (.busWrite b) (Spec.quiet { s with cmd := code } classes) := by
  simpa only [Spec.statusAfter, ite_self] using Leaves.shtWrite (s := s) b code .nop classes

theorem families_sht4xRow : ∀ r ∈ sht4xRows, r.instr.families = isSht4x := by
  simp [sht4xRows, Instr.families]

theorem families_sht31Row : ∀ r ∈ sht31Rows, r.instr.families = isSht31 := by
  simp [sht31Rows, Instr.families]

/-- A row of the command tables completes only on the family of its table. -/
theorem commandRow_of_exec {r : CommandRow} (hr : r ∈ sht4xRows ++ sht31Rows) (h : exec r.instr s = .next t) :
    Ready Family.isSensirion s ∧ r ∈ s.cfg.commandRows := by
  obtain ⟨hc, hf⟩ := exec_next_ready h
  obtain h4x | h31 := List.mem_append.1 hr
  · rw [families_sht4xRow r h4x] at hf
    exact ⟨Ready.sensirion_of_sht4x ⟨hc, hf⟩, by simpa [Config.commandRows, eq_of_beq hf] using h4x⟩
  · rw [families_sht31Row r h31] at hf
    exact ⟨Ready.sensirion_of_sht31 ⟨hc, hf⟩, by simpa [Config.commandRows, eq_of_beq hf] using h31⟩

theorem leaves_bmeWrite {b : List Byte} (h : exec (.bme280BusWrite b) s = .next t) : Leaves s (.busWrite b) t := by
  rw [exec_bme280BusWrite, onFamily_next] at h
  obtain ⟨-, -, rfl⟩ := h
  convert Leaves.bmeWrite (s := s) b using 1
  rw [s.begin.writePairs_eq]
  split_ifs <;> rfl

theorem leaves_shtWrite {b : List Byte} (h : exec (.shtBusWrite b) s = .next t) : Leaves s (.busWrite b) t := by
  have hready : Ready Family.isSensirion s := exec_next_ready h
  by_cases hb : b.length = s.cfg.need
  · rw [exec_shtBusWrite_code hready ⟨hb, rfl⟩, Host.Outcome.next.injEq] at h
    subst h
    cases hk : s.cfg.kindOf (commandCode s.cfg b) with
    | none =>
      rw [State.begin_command_unknown hk]
      exact .latch s b _ _
    | some k =>
      rw [State.begin_command_known hk]
      exact .shtWrite b _ k _
  · rw [exec_shtBusWrite_badCount hready hb, Host.Outcome.next.injEq] at h
    subst h
    exact .latch s b _ _

/-- A row of the command tables latches its code and has its kind's effect. -/
theorem leaves_commandRow (hi : ∃ r ∈ sht4xRows ++ sht31Rows, r.instr = i) (h : exec i s = .next t) :
    Leaves s (encode s.cfg i) t := by
  obtain ⟨r, hr, rfl⟩ := hi
  obtain ⟨hready, hmem⟩ := commandRow_of_exec hr h
  rw [exec_commandRow hready hmem, Host.Outcome.next.injEq] at h
  subst h
  rw [encode_commandRow hmem]
  exact .shtWrite _ _ r.kind _

/-- An instruction that completes leaves what its event can leave. -/
theorem exec_leaves (h : exec i s = .next t) : Leaves s (encode s.cfg i) t := by
  cases i with
  | bme280BusWrite b => exact leaves_bmeWrite h
  | bme280WriteEmpty => exact leaves_bmeWrite h
  | bme280Select a => exact leaves_bmeWrite (b := [a]) h
  | bme280WritePairs a v rest => exact leaves_bmeWrite ((exec_bme280WritePairs_eq_busWrite a v rest s).symm.trans h)
  | bme280BusRead k => rw [bme280BusRead_next h]; exact .read k _ _
  | shtBusRead k => rw [shtBusRead_next h]; exact .read k _ _
  | shtBusWrite b => exact leaves_shtWrite h
  | shtInvalidCount b | shtUnrecognized code | shtNop code =>
    dsimp only [exec] at h
    obtain ⟨-, -, rfl⟩ := onFamily_next.1 h
    exact .latch s _ _ _
  | bme280SetT v =>
    obtain ⟨q, rfl, -, -, rfl⟩ := onHostCall_next.1 h
    obtain ⟨w, classes, heq, -⟩ := s.begin.bmeSetT_eq_put20 q
    rw [heq, State.put20, State.memWrite_eq]
    exact .bmeSetT _ (put20Bytes w) (by simp [put20Bytes]) classes
  | bme280SetH v =>
    obtain ⟨q, rfl, -, -, rfl⟩ := onHostCall_next.1 h
    by_cases hc4 : s.begin.humTerms.c4 = 0
    · obtain ⟨classes, heq⟩ := State.bmeSetH_of_c4_zero hc4 q
      rw [heq]
      exact .bmeSetH _ [] (by simp) classes
    · obtain ⟨w, classes, heq, -⟩ := State.bmeSetH_of_c4_ne_zero hc4 q
      rw [heq, State.memWrite_eq]
      exact .bmeSetH _ [hiByte w, loByte w] (by simp) classes
  | shtSetT v =>
    obtain ⟨q, rfl, -, -, rfl⟩ := onHostCall_next.1 h
    rw [State.begin_shtSetT]
    exact .shtSetT _ _ _
  | shtSetH v =>
    obtain ⟨q, rfl, -, -, rfl⟩ := onHostCall_next.1 h
    rw [State.begin_shtSetH]
    exact .shtSetH _ _ _
  | _ => exact leaves_commandRow (by decide) h

/-! ### Access rights -/

/-- The bytes outside the range of a `MemWrite` read as before. -/
theorem State.readByte_quiet_memWrite_other (s : State) {a start : Nat} {l : List Byte} (classes : List ErrorClass)
    (h : a < start ∨ start + l.length ≤ a) :
    (Spec.quiet { s with x := (s.begin.memWrite start l).x } classes).readByte a = s.readByte a := by
  have hcfg : (Spec.quiet { s with x := (s.begin.memWrite start l).x } classes).cfg = (s.begin.memWrite start l).cfg :=
    (s.begin.memWrite_cfg start l).symm
  exact (State.readByte_congr hcfg rfl a).trans (State.readByte_memWrite_other s.begin h)

section Leaves

variable (h : Leaves s e t)
include h

theorem Leaves.cfg_eq : t.cfg = s.cfg := by cases h <;> rfl

theorem Leaves.input_eq : t.input = s.input := by cases h <;> rfl

theorem Leaves.serial_eq : t.serial = s.serial := by cases h <;> rfl

/-- R48: the writers of `T_RAW`. -/
theorem Leaves.tRaw_writer (hne : t.tRaw ≠ s.tRaw) : ∃ v, e = .setT v := by
  cases h with
  | shtSetT v => exact ⟨v, rfl⟩
  | _ => exact absurd rfl hne

/-- R48: the writers of `H_RAW`. -/
theorem Leaves.hRaw_writer (hne : t.hRaw ≠ s.hRaw) : ∃ v, e = .setH v := by
  cases h with
  | shtSetH v => exact ⟨v, rfl⟩
  | _ => exact absurd rfl hne

/-- R48, R281: the writers of STATUS. -/
theorem Leaves.status_writer (hne : t.status ≠ s.status) : s.cfg.family = .sht31 ∧ ∃ b, e = .busWrite b := by
  cases h with
  | shtWrite b => exact ⟨by_contra fun hf => hne (if_neg hf), b, rfl⟩
  | _ => exact absurd rfl hne

/-- R48: the writers of `CMD`. -/
theorem Leaves.cmd_writer (hne : t.cmd ≠ s.cmd) : (∃ b, e = .busWrite b) ∨ ∃ k, e = .busRead k := by
  cases h with
  | shtWrite b => exact .inl ⟨b, rfl⟩
  | read k => exact .inr ⟨k, rfl⟩
  | _ => exact absurd rfl hne

/-- R48: the writers of `CA`. -/
theorem Leaves.ca_writer (hne : t.ca ≠ s.ca) : ∃ b, e = .busWrite b := by
  cases h with
  | bmeWrite b => exact ⟨b, rfl⟩
  | _ => exact absurd rfl hne

/-- R48: the writers of `PS`. -/
theorem Leaves.ps_writer (hne : t.ps ≠ s.ps) : ∃ b, e = .busWrite b := by
  cases h with
  | bmeWrite b => exact ⟨b, rfl⟩
  | _ => exact absurd rfl hne

/-- R48: the writers of a byte of the register file. -/
theorem Leaves.readByte_writer {a : Nat} (hne : t.readByte a ≠ s.readByte a) :
    (∃ b, e = .busWrite b) ∨ ((∃ v, e = .setT v) ∧ 0xFA ≤ a ∧ a ≤ 0xFC) ∨
      ((∃ v, e = .setH v) ∧ 0xFD ≤ a ∧ a ≤ 0xFE) := by
  cases h with
  | bmeWrite b | shtWrite b => exact .inl ⟨b, rfl⟩
  | bmeSetT v l hl classes =>
    have := mt (s.readByte_quiet_memWrite_other (l := l) classes) hne
    exact .inr (.inl ⟨⟨v, rfl⟩, by omega, by omega⟩)
  | bmeSetH v l hl classes =>
    have := mt (s.readByte_quiet_memWrite_other (l := l) classes) hne
    exact .inr (.inr ⟨⟨v, rfl⟩, by omega, by omega⟩)
  | read | shtSetT | shtSetH => exact absurd (State.readByte_congr rfl rfl a) hne

end Leaves

/-- Settles O12: the instruction leaves what its event can leave, and each element's writers can be read off that. -/
theorem accessRights : Obligations.AccessRights := by
  intro i s t hnext
  have h := exec_leaves hnext
  exact ⟨h.cfg_eq, h.input_eq, h.serial_eq, h.tRaw_writer, h.hRaw_writer, h.status_writer, h.cmd_writer, h.ca_writer,
    h.ps_writer, fun _ => h.readByte_writer⟩

end Sys2Proof.Machine

/-! PROOFS. The invariant of the block and the runs of the machine (spec/10_state, spec/60_exceptions R330). -/

namespace Sys2Proof.Machine

variable {s t : State} {e : Event}

/-! ### One step -/

theorem step_of_idle (h : s.input = []) : step s = .next s := by
  simp [step, nextInput, h]

/-- Settles O7: the three cases of the queue. -/
theorem stepRunsDecodedEvent : Obligations.StepRunsDecodedEvent := fun _ _ =>
  ⟨fun _ => step_of_event, step_of_powerCycle, step_of_idle⟩

/-- Settles O52: the power cycle at the head of the queue runs the reset of an accepted configuration. -/
theorem powerCycleResets : Obligations.PowerCycleResets := by
  intro s rest hc hinput
  rw [step_of_powerCycle hinput]
  exact powerCycle_next.2 ⟨hc, rfl⟩

/-! ### The invariant -/

/-- `a` has no bit outside `b`. -/
theorem and_not_eq_zero_iff {w : Nat} {a b : BitVec w} :
    a &&& ~~~b = 0#w ↔ ∀ i, a.getLsbD i = true → b.getLsbD i = true := by
  constructor
  · intro h i hi
    have hbit := congrArg (·.getLsbD i) h
    simpa [hi, BitVec.lt_of_getLsbD hi] using hbit
  · intro h
    refine BitVec.eq_of_getLsbD_eq fun i hi => ?_
    cases ha : a.getLsbD i with
    | false => simp [ha]
    | true => simp [h i ha]

/-- R42, R223: no command sets a bit of STATUS outside STATUS_RESET and the heater mask. -/
theorem statusAfter_bits {c : Config} {st : Word16} (k : Kind)
    (h : st &&& ~~~(c.statusReset ||| c.heaterMask) = 0#16) :
    Spec.statusAfter c st k &&& ~~~(c.statusReset ||| c.heaterMask) = 0#16 := by
  rw [and_not_eq_zero_iff] at h ⊢
  intro i hi
  have hst := h i
  rw [BitVec.getLsbD_or, Bool.or_eq_true] at hst ⊢
  cases k with
  | clearStatus => simp [Spec.statusAfter] at hi
  | softReset => exact .inl hi
  | heaterOn =>
    rw [Spec.statusAfter, BitVec.getLsbD_or, Bool.or_eq_true] at hi
    exact hi.elim hst .inr
  | heaterOff =>
    rw [Spec.statusAfter, BitVec.getLsbD_and, Bool.and_eq_true] at hi
    exact hst hi.1
  | measure | readSerial | readStatus | nop => exact hst hi

theorem State.writePairs_memWf (h : s.memWf) (b : List Byte) : (s.writePairs b).memWf := by
  induction s, b using State.writePairs.induct with
  | case1 s => exact h
  | case2 s a => exact h
  | case3 s a v rest ih => exact ih (State.storePair_memWf a v h)

theorem State.writePairs_cfg (s : State) (b : List Byte) : (s.writePairs b).cfg = s.cfg := by
  rw [s.writePairs_eq]

/-- The canonical form asks for the register file and its reset image alone. -/
theorem State.memWf_congr (hcfg : s.cfg = t.cfg) (hx : s.x = t.x) (h : s.memWf) : t.memWf := by
  unfold State.memWf at h ⊢
  rwa [← hcfg, ← hx]

/-- Settles O9: the reset image is canonical, and every other clause is read off `State.powerOn`. -/
theorem powerOnHasInv : Obligations.PowerOnHasInv := by
  intro c
  exact
    { memory := State.powerOn_memWf c
      idle := fun _ => rfl
      status := and_not_eq_zero_iff.2 fun i hi => by simp_all
      serial := rfl
      command := fun _ => by simp }

section Leaves

variable (h : Leaves s e t)
include h

theorem Leaves.memWf (hmem : s.memWf) : t.memWf := by
  have hmem' : s.begin.memWf := hmem
  cases h with
  | bmeWrite b => exact State.memWf_congr (s.begin.writePairs_cfg b) rfl (State.writePairs_memWf hmem' b)
  | bmeSetT v l hl =>
    exact State.memWf_congr (s.begin.memWrite_cfg 0xFA l) rfl (State.memWrite_memWf (by omega) hmem')
  | bmeSetH v l hl =>
    exact State.memWf_congr (s.begin.memWrite_cfg 0xFD l) rfl (State.memWrite_memWf (by omega) hmem')
  | _ => exact hmem

theorem Leaves.idle (hidle : s.ps = .idle → s.ca = 0x00#8) (hps : t.ps = .idle) : t.ca = 0x00#8 := by
  cases h with
  | bmeWrite b =>
    cases b with
    | nil => exact hidle hps
    | cons c b => cases hps
  | _ => exact hidle hps

theorem Leaves.status_bits (hst : s.status &&& ~~~(s.cfg.statusReset ||| s.cfg.heaterMask) = 0#16) :
    t.status &&& ~~~(t.cfg.statusReset ||| t.cfg.heaterMask) = 0#16 := by
  cases h with
  | shtWrite b code k =>
    dsimp only [Spec.quiet]
    split_ifs
    · exact statusAfter_bits k hst
    · exact hst
  | _ => exact hst

end Leaves

/-- R280: whatever the code's kind, the code is latched. -/
theorem State.command_cmd (s : State) (code : Word16) : (s.command code).cmd = code := by
  unfold State.command
  split <;> simp

/-- R39, R113: on SHT4x no write latches a code above 255. -/
theorem shtBusWrite_cmd_lt (h4x : s.cfg.family = .sht4x) {b : List Byte} (h : exec (.shtBusWrite b) s = .next t) :
    t.cmd.toNat < 256 := by
  have hready : Ready Family.isSensirion s := exec_next_ready h
  by_cases hb : b.length = s.cfg.need
  · have hcode : CarriesCode s.cfg b (commandCode s.cfg b) := ⟨hb, rfl⟩
    rw [exec_shtBusWrite_code hready hcode, Host.Outcome.next.injEq] at h
    rw [← h, State.command_cmd]
    simpa [Config.codeFits, h4x] using (hcode.codeBytes_eq hready.family).2
  · rw [exec_shtBusWrite_badCount hready hb, Host.Outcome.next.injEq] at h
    rw [← h]
    exact Nat.zero_lt_succ 255

/-- An event's instruction that completes leaves what the event can leave. -/
theorem exec_decode_leaves (h : exec (decode s.cfg e) s = .next t) : Leaves s e t := by
  have hleaves := exec_leaves h
  rwa [encodeOfDecode] at hleaves

/-- R39: on SHT4x the high byte of `CMD` stays 0. -/
theorem exec_decode_cmd_lt (h4x : s.cfg.family = .sht4x) (hlt : s.cmd.toNat < 256)
    (h : exec (decode s.cfg e) s = .next t) : t.cmd.toNat < 256 := by
  have hf : s.cfg.family.isSensirion = true := by rw [h4x]; rfl
  have hkept : (∀ b, e ≠ .busWrite b) → (∀ k, e ≠ .busRead k) → t.cmd.toNat < 256 := fun hwrite hread => by
    have hcmd : t.cmd = s.cmd := by_contra fun hne =>
      ((exec_decode_leaves h).cmd_writer hne).elim (fun ⟨b, hb⟩ => hwrite b hb) fun ⟨k, hk⟩ => hread k hk
    rwa [hcmd]
  cases e with
  | busWrite b =>
    rw [← shtGeneralWriteAgrees s b ⟨exec_next_wellFormed h, hf⟩] at h
    exact shtBusWrite_cmd_lt h4x h
  | busRead k =>
    rw [decode_shtBusRead hf] at h
    rw [shtBusRead_cmd h]
    split_ifs
    · exact Nat.zero_lt_succ 255
    · exact hlt
  | setT v | setH v => exact hkept nofun nofun

/-- An instruction that completes keeps every clause of the invariant. -/
theorem exec_decode_keeps_inv (hinv : Inv s) (h : exec (decode s.cfg e) s = .next t) : Inv t := by
  have hleaves := exec_decode_leaves h
  exact
    { memory := hleaves.memWf hinv.memory
      idle := hleaves.idle hinv.idle
      status := hleaves.status_bits hinv.status
      serial := by rw [hleaves.serial_eq, hleaves.cfg_eq]; exact hinv.serial
      command := fun h4x => by
        rw [hleaves.cfg_eq] at h4x
        exact exec_decode_cmd_lt h4x (hinv.command h4x) h }

/-- The invariant does not look at the queue or at the platform's counter. -/
theorem Inv.withInput (h : Inv s) (input : List Input) (free : Nat) : Inv { s with input := input, free := free } :=
  ⟨h.memory, h.idle, h.status, h.serial, h.command⟩

/-- Settles O8, by what the step runs. -/
theorem stepKeepsInv : Obligations.StepKeepsInv := by
  intro s t hinv hstep
  match hinput : s.input with
  | [] =>
    rw [step_of_idle hinput, Host.Outcome.next.injEq] at hstep
    exact hstep ▸ hinv
  | .powerCycle :: rest =>
    rw [step_of_powerCycle hinput] at hstep
    obtain ⟨-, rfl⟩ := powerCycle_next.1 hstep
    exact (powerOnHasInv s.cfg).withInput rest s.free
  | .event e :: rest =>
    rw [step_of_event hinput] at hstep
    exact exec_decode_keeps_inv (hinv.withInput rest s.free) hstep

/-! ### Runs -/

/-- R330: a step of an accepted configuration on accepted inputs completes, takes the oldest arrival and keeps the
configuration. -/
theorem step_completes (hc : s.cfg.wellFormed = true) (hin : ∀ i ∈ s.input, i.accepted = true) :
    ∃ t, step s = .next t ∧ t.input = s.input.drop 1 ∧ t.cfg = s.cfg := by
  match hinput : s.input with
  | [] => exact ⟨s, step_of_idle hinput, hinput, rfl⟩
  | .powerCycle :: rest => exact ⟨_, powerCycleResets s rest hc hinput, rfl, rfl⟩
  | .event e :: rest =>
    have haccepted : (Input.event e).accepted = true := hin _ (by simp [hinput])
    obtain ⟨t, ht⟩ := exec_completes (s := { s with input := rest }) hc (decodeIsWellFormed s.cfg e haccepted)
    have hleaves := exec_leaves ht
    exact ⟨t, (step_of_event hinput).trans ht, hleaves.input_eq, hleaves.cfg_eq⟩

theorem run_succ_of_step {M : Host.Core} {s t : M.State} {k : Nat} (h : M.step s = .next t) :
    M.run (k + 1) s = M.run k t := by
  simp only [Host.Core.run, h]

/-- Settles O10, by induction on the number of steps. -/
theorem everyRunCompletes : Obligations.EveryRunCompletes := by
  intro s k hc hin
  induction k generalizing s with
  | zero => exact ⟨s, rfl, rfl, rfl⟩
  | succ k ih =>
    obtain ⟨t, hstep, hinput, hcfg⟩ := step_completes hc hin
    obtain ⟨u, hrun, huinput, hucfg⟩ := ih t (hcfg ▸ hc) fun i hi => hin i (List.mem_of_mem_drop (hinput ▸ hi))
    refine ⟨u, (run_succ_of_step (M := Sys2Proof.core) hstep).trans hrun, ?_, hucfg.trans hcfg⟩
    rw [huinput, hinput, List.drop_drop, Nat.add_comm]

end Sys2Proof.Machine

/-! PROOFS. CRC-8: a message with its CRC, and single-byte errors (spec/41_crc8 R170, R172). -/

namespace Sys2Proof.Machine

/-- R170: a further byte of a message is one more round. -/
theorem crc8_append_singleton (m : List Byte) (v : Byte) : crc8 (m ++ [v]) = crcByte (crc8 m) v := by
  simp [crc8]

/-- R170: a round depends on the exclusive or alone, and equal bytes cancel to 0. -/
theorem crcByte_self (c : Byte) : crcByte c c = 0#8 := by
  rw [crcByte, BitVec.xor_self]
  decide

/-- Settles O35: the last round of the message with its CRC is a round of equal bytes. -/
theorem crcOfMessageAndCrcIsZero : Obligations.CrcOfMessageAndCrcIsZero := fun m =>
  (crc8_append_singleton m _).trans (crcByte_self _)

/-- The polynomial's lowest bit is set, so a shift leaves in bit 0 the bit that it takes out. -/
theorem crcShift_getLsbD_zero (c : Byte) : (crcShift c).getLsbD 0 = c.msb := by
  unfold crcShift
  split_ifs with h <;> simp [h]

/-- A byte is its high bit and the rest, shifted. -/
theorem eq_of_msb_eq_of_shiftLeft_eq {c c' : Byte} (hmsb : c.msb = c'.msb) (h : c <<< 1 = c' <<< 1) : c = c' := by
  rw [BitVec.msb_eq_decide, BitVec.msb_eq_decide, decide_eq_decide] at hmsb
  have htoNat := congrArg BitVec.toNat h
  simp only [BitVec.toNat_shiftLeft, Nat.shiftLeft_eq] at htoNat
  apply BitVec.eq_of_toNat_eq
  omega

/-- One shift loses nothing: the bit it takes out stands in bit 0 afterwards. -/
theorem crcShift_injective : Function.Injective crcShift := by
  intro c c' h
  have hmsb : c.msb = c'.msb := by rw [← crcShift_getLsbD_zero, h, crcShift_getLsbD_zero]
  refine eq_of_msb_eq_of_shiftLeft_eq hmsb ?_
  unfold crcShift at h
  rw [hmsb] at h
  split_ifs at h with hset
  · exact (BitVec.xor_left_inj _).1 h
  · exact h

/-- A round loses nothing of the exclusive or it starts from. -/
theorem crcByte_eq_iff {c c' m m' : Byte} : crcByte c m = crcByte c' m' ↔ c ^^^ m = c' ^^^ m' := by
  have hrepeat : ∀ n, Function.Injective (Nat.repeat crcShift n) := fun n => by
    induction n with
    | zero => exact Function.injective_id
    | succ n ih => exact crcShift_injective.comp ih
  exact (hrepeat 8).eq_iff

theorem crcWord_eq (w : Word16) : crcWord w = crcByte (crcByte 0xFF#8 (hiByte w)) (loByte w) := rfl

/-- Settles O36: each of the two rounds is injective in the byte it takes. -/
theorem crcDetectsOneByte : Obligations.CrcDetectsOneByte := by
  intro w w' hbyte hcrc
  rw [crcWord_eq, crcWord_eq, crcByte_eq_iff] at hcrc
  have hbytes : hiByte w = hiByte w' ∧ loByte w = loByte w' := by
    obtain hhi | hlo := hbyte
    · rw [hhi] at hcrc
      exact ⟨hhi, (BitVec.xor_right_inj _).1 hcrc⟩
    · rw [hlo, BitVec.xor_left_inj, crcByte_eq_iff] at hcrc
      exact ⟨(BitVec.xor_right_inj _).1 hcrc, hlo⟩
  rw [← joinBytes_hiByte_loByte w, hbytes.1, hbytes.2, joinBytes_hiByte_loByte]

/-- Settles O34: seven evaluations. -/
theorem crcVectors : Obligations.CrcVectors := by
  unfold Obligations.CrcVectors
  decide +kernel

end Sys2Proof.Machine

/-! PROOFS. Fields and scaled coefficients of the exact solver (spec/00_scope R18, spec/40_quadratic_solver R152). -/

namespace Sys2Proof.Machine

/-- Settles O24: the comparisons and the conversion of a well-formed surd. -/
theorem fieldOfSurdExact : Obligations.FieldOfSurdExact := fun _ hd hw =>
  have hv : Surd.WellFormed _ := ⟨hd, hw⟩
  ⟨fun y => ⟨Surd.atLeast_iff hv y, Surd.atMost_iff hv y⟩,
    fun bits => ⟨fieldOf_value hv bits, fieldOf_clamped_iff hv bits⟩⟩

namespace Spec

variable {k a b c : ℝ}

/-- R152: the root that takes `sign`·√D. -/
noncomputable def root (a b c sign : ℝ) : ℝ := (-b + sign * √(b * b - 4 * a * c)) / (2 * a)

/-- R152: SOLVE chooses between the two roots. -/
theorem solve_of_discriminant_pos (ha : a ≠ 0) (hD : 0 < b * b - 4 * a * c) :
    solve a b c .max = max (root a b c 1) (root a b c (-1)) ∧
      solve a b c .min = min (root a b c 1) (root a b c (-1)) := by
  unfold solve
  rw [if_neg ha, if_pos hD, if_neg ha, if_pos hD]
  simp only [root, one_mul, neg_one_mul, sub_eq_add_neg, and_self]

theorem discriminant_scale (k a b c : ℝ) :
    k * b * (k * b) - 4 * (k * a) * (k * c) = k * k * (b * b - 4 * a * c) := by ring

/-- Scaling the coefficients by `k` turns the sign of the root with the sign of `k`. -/
theorem root_scale (hk : k ≠ 0) (a b c sign : ℝ) :
    root (k * a) (k * b) (k * c) sign = root a b c (sign * (|k| / k)) := by
  have hsqrt : √(k * k * (b * b - 4 * a * c)) = |k| * √(b * b - 4 * a * c) := by
    rw [Real.sqrt_mul (mul_self_nonneg k), Real.sqrt_mul_self_eq_abs]
  have hnum : -(k * b) + sign * (|k| * √(b * b - 4 * a * c)) =
      k * (-b + sign * (|k| / k) * √(b * b - 4 * a * c)) := by
    field_simp
  rw [root, discriminant_scale, hsqrt, hnum, mul_left_comm 2, mul_div_mul_left _ _ hk, root]

/-- R152: SOLVE depends on the coefficients up to a nonzero factor: the roots stay or change places. -/
theorem solve_scale (hk : k ≠ 0) (a b c : ℝ) (choice : RootChoice) :
    solve (k * a) (k * b) (k * c) choice = solve a b c choice := by
  by_cases ha : a = 0
  · by_cases hb : b = 0
    · simp [solve, ha, hb]
    · simp [solve, ha, hb, hk, ← mul_neg, mul_div_mul_left]
  by_cases hD : 0 < b * b - 4 * a * c
  · have hD' : 0 < k * b * (k * b) - 4 * (k * a) * (k * c) := by
      rw [discriminant_scale]
      exact mul_pos (mul_self_pos.2 hk) hD
    obtain ⟨hmax, hmin⟩ := solve_of_discriminant_pos ha hD
    obtain ⟨hmax', hmin'⟩ := solve_of_discriminant_pos (mul_ne_zero hk ha) hD'
    have hroots : ∀ sign, root (k * a) (k * b) (k * c) sign = root a b c (sign * (|k| / k)) := root_scale hk a b c
    obtain hpos | hneg := abs_choice k
    · cases choice <;> simp [hmax, hmax', hmin, hmin', hroots, hpos, hk]
    · cases choice <;> simp [hmax, hmax', hmin, hmin', hroots, hneg, hk, max_comm, min_comm]
  · have hD' : ¬ 0 < k * b * (k * b) - 4 * (k * a) * (k * c) := by
      rw [discriminant_scale]
      exact fun h => hD (pos_of_mul_pos_right h (mul_self_nonneg k))
    simp only [solve, ha, hD, hD', mul_ne_zero hk ha, if_false]
    rw [← mul_neg, mul_left_comm 2, mul_div_mul_left _ _ hk]

end Spec

/-- Settles O25: the solver's surd is SOLVE of real numbers, where scaling shows. -/
theorem solverScaleInvariant : Obligations.SolverScaleInvariant := by
  intro k a b c choice hk
  simp only [value_solve, RealTerm.value_mul, Spec.solve_scale hk]

end Sys2Proof.Machine

/-! PROOFS. The humidity quadratic, the notes and the frame of the BME280 host calls (spec/42_bme280_codec R185 to R188,
spec/60_exceptions R331). -/

namespace Sys2Proof.Machine

variable {s t : State}

/-! ### The discriminant of the humidity quadratic -/

theorem State.humTerms_c2 (s : State) : ((s.humTerms.c2 : Rat) : ℝ) = (s.calH1 : ℝ) / 524288 := by
  simp [State.humTerms, Machine.humTerms]

/-- H1 is an unsigned byte. -/
theorem State.calH1_bounds (s : State) : 0 ≤ s.calH1 ∧ s.calH1 ≤ 255 := by
  have := (s.readByte 0xA1).isLt
  unfold State.calH1
  omega

theorem value_clamp_bounds (q : Number) : 0 ≤ (q.clamp 0 100).value ∧ (q.clamp 0 100).value ≤ 100 := by
  rw [value_clamp_percent]
  exact ⟨le_min (le_max_right _ _) (by norm_num), min_le_right _ _⟩

/-- Settles O29: c2 is less than 1/2000 and the clamped humidity at most 100, so 4·c2·H stays below 1. -/
theorem humidityDiscriminantPositive : Obligations.HumidityDiscriminantPositive := by
  intro s q
  obtain ⟨hlo, hhi⟩ := value_clamp_bounds q
  obtain ⟨hH1, hH1'⟩ : (0 : ℝ) ≤ s.calH1 ∧ (s.calH1 : ℝ) ≤ 255 := by exact_mod_cast s.calH1_bounds
  have hproduct : (s.calH1 : ℝ) * (q.clamp 0 100).value ≤ 255 * 100 := mul_le_mul hH1' hhi hlo (by norm_num)
  rw [value_discriminant]
  simp only [RealTerm.value_ofRat, RealTerm.value_num, s.humTerms_c2]
  push_cast
  linarith

/-! ### The clamp of the argument -/

theorem clamp_of_above {q : Number} (h : 100 < q.value) : q.clamp 0 100 = .rat 100 := by
  have hlo : ¬ q.below 0 = true := by
    rw [Number.below_iff]
    push_cast
    linarith
  have hhi : q.above 100 = true := by
    rw [Number.above_iff]
    exact_mod_cast h
  rw [Number.clamp, if_neg hlo, if_pos hhi]

theorem clamp_of_below {q : Number} (h : q.value < 0) : q.clamp 0 100 = .rat 0 := by
  have hlo : q.below 0 = true := by
    rw [Number.below_iff]
    exact_mod_cast h
  rw [Number.clamp, if_pos hlo]

/-- The ends of [0, 100] are clamped to themselves. -/
theorem clamp_ends : (Number.rat 100).clamp 0 100 = .rat 100 ∧ (Number.rat 0).clamp 0 100 = .rat 0 := by
  simp [Number.clamp]

/-- D10: SET_H stores by the clamped argument alone. -/
theorem State.bmeSetH_sameBlock {q q' : Number} (h : q.clamp 0 100 = q'.clamp 0 100) (s : State) :
    SameBlock (s.bmeSetH q) (s.bmeSetH q') := by
  unfold State.bmeSetH
  rw [h]
  dsimp only
  split_ifs <;> rfl

/-- D10: SET_H stores by the clamped argument alone. -/
theorem State.shtSetH_sameBlock {q q' : Number} (h : q.clamp 0 100 = q'.clamp 0 100) (s : State) :
    SameBlock (s.shtSetH q) (s.shtSetH q') := by
  unfold State.shtSetH
  rw [h]
  rfl

/-- D10: two arguments with one clamped value complete alike. -/
theorem setH_clamped_alike {set : HostValue → Instr} (hset : set ∈ [Instr.bme280SetH, Instr.shtSetH]) {q q' : Number}
    (h : q.clamp 0 100 = q'.clamp 0 100) (hnext : exec (set (.finite q)) s = .next t) :
    ∃ u, exec (set (.finite q')) s = .next u ∧ SameBlock t u := by
  simp only [List.mem_cons, List.not_mem_nil, or_false] at hset
  obtain rfl | rfl := hset
  · rw [exec_bme280SetH, onFamily_next] at hnext
    obtain ⟨hc, hf, rfl⟩ := hnext
    exact ⟨_, (exec_bme280SetH q' s).trans (onFamily_ready hc hf), State.bmeSetH_sameBlock h _⟩
  · rw [exec_shtSetH, onFamily_next] at hnext
    obtain ⟨hc, hf, rfl⟩ := hnext
    exact ⟨_, (exec_shtSetH q' s).trans (onFamily_ready hc hf), State.shtSetH_sameBlock h _⟩

/-- Settles O30: an argument beyond an end of [0, 100] is clamped to what the end is. -/
theorem humidityClampedAlike : Obligations.HumidityClampedAlike := fun _ hset _ _ _ hnext =>
  ⟨fun h => setH_clamped_alike hset ((clamp_of_above h).trans clamp_ends.1.symm) hnext,
    fun h => setH_clamped_alike hset ((clamp_of_below h).trans clamp_ends.2.symm) hnext⟩

/-! ### The frame of a host call -/

/-- R188: SET_T reaches the bytes 0xFA to 0xFC alone. -/
theorem setT_readByte {v : HostValue} (h : exec (.bme280SetT v) s = .next t) {a : Nat} (ha : a < 0xFA ∨ 0xFC < a) :
    t.readByte a = s.readByte a := by
  by_contra hne
  obtain ⟨b, hb⟩ | ⟨-, hlo, hhi⟩ | ⟨⟨v', hv⟩, -⟩ := (exec_leaves h).readByte_writer hne
  · cases hb
  · omega
  · cases hv

/-- R188: SET_H reaches the bytes 0xFD and 0xFE alone. -/
theorem setH_readByte {v : HostValue} (h : exec (.bme280SetH v) s = .next t) {a : Nat} (ha : a < 0xFD ∨ 0xFE < a) :
    t.readByte a = s.readByte a := by
  by_contra hne
  obtain ⟨b, hb⟩ | ⟨⟨v', hv⟩, -⟩ | ⟨-, hlo, hhi⟩ := (exec_leaves h).readByte_writer hne
  · cases hb
  · cases hv
  · omega

/-- R181, R184: t_fine and `adc_T` are read from the bytes below 0xFD. -/
theorem tFine_congr (h : ∀ a, a < 0xFD → t.readByte a = s.readByte a) : t.adcT = s.adcT ∧ t.tFine = s.tFine := by
  have hadc : t.adcT = s.adcT := by simp [State.adcT, h]
  have hcal : t.calT1 = s.calT1 ∧ t.calT2 = s.calT2 ∧ t.calT3 = s.calT3 := by
    simp [State.calT1, State.calT2, State.calT3, State.calWord, h]
  obtain ⟨h1, h2, h3⟩ := hcal
  exact ⟨hadc, by rw [State.tFine, State.tFine, hadc, h1, h2, h3]⟩

/-- Settles O33: neither call's bytes are among those the other's fields are read from. -/
theorem bmeHostCallsKeepOtherField : Obligations.BmeHostCallsKeepOtherField := by
  refine fun s t q => ⟨fun h => ?_, fun h => ?_⟩
  · have hfd := setT_readByte h (a := 0xFD) (by omega)
    have hfe := setT_readByte h (a := 0xFE) (by omega)
    exact ⟨hfd, hfe, by rw [State.adcH, hfd, hfe, State.adcH]⟩
  · have hkept : ∀ a, a < 0xFD → t.readByte a = s.readByte a := fun a ha => setH_readByte h (.inl ha)
    exact ⟨hkept _ (by omega), hkept _ (by omega), hkept _ (by omega), tFine_congr hkept⟩

/-! ### The notes of a host call -/

/-- R154, R331 class 4: the guard or the vertex. -/
theorem degenerate_iff (a b c : RealTerm) :
    degenerate a b c = true ↔ a.value = 0 ∨ b.value * b.value - 4 * a.value * c.value ≤ 0 := by
  rw [degenerate, Bool.or_eq_true, Bool.not_eq_true', ← Bool.not_eq_true, RealTerm.isZero_iff, RealTerm.isPos_iff,
    value_discriminant, not_lt]

/-- R183: the temperature quadratic's degenerate cases are the solver's. -/
theorem tempCoeffs_degenerate_iff (t1 t2 t3 : ℤ) (q : Number) :
    degenerate (tempCoeffs t1 t2 t3 q).1 (tempCoeffs t1 t2 t3 q).2.1 (tempCoeffs t1 t2 t3 q).2.2 = true ↔
      Spec.tempDegenerate t1 t2 t3 q.value := by
  have ha : (tempCoeffs t1 t2 t3 q).1.value = Spec.tempA t3 := by simp [tempCoeffs, Spec.tempA]
  have hb : (tempCoeffs t1 t2 t3 q).2.1.value = Spec.tempB t1 t2 t3 := by simp [tempCoeffs, Spec.tempB]
  have hc : (tempCoeffs t1 t2 t3 q).2.2.value = Spec.tempC t1 t2 t3 q.value := by simp [tempCoeffs, Spec.tempC]
  have hzero : Spec.tempA t3 = 0 ↔ t3 = 0 := by simp [Spec.tempA]
  rw [degenerate_iff, ha, hb, hc, hzero, Spec.tempDegenerate]

/-- R183, R331: the result of SET_T is clamped where the rule's real number lies outside the field. -/
theorem tempExact_clamped_iff (t1 t2 t3 : ℤ) (q : Number) :
    (fieldOf 20 (tempExact t1 t2 t3 q)).clamped = true ↔
      Spec.temperature t1 t2 t3 q.value < 0 ∨ 0xFFFFF < Spec.temperature t1 t2 t3 q.value := by
  rw [fieldOf_clamped_iff (tempExact_wellFormed _ _ _ _), value_tempExact]
  norm_num

/-- R185: the humidity quadratic degenerates exactly where c2 = 0. -/
theorem State.humTerms_degenerate_iff (s : State) (q : Number) :
    degenerate (.ofRat s.humTerms.c2) (.ofRat (-1)) (.num (q.clamp 0 100)) = true ↔ s.calH1 = 0 := by
  have hD := humidityDiscriminantPositive s q
  rw [value_discriminant] at hD
  rw [degenerate_iff, or_iff_left hD.not_ge, RealTerm.value_ofRat, s.humTerms_c2]
  simp

/-- R185, R331: the result of SET_H is clamped where the rule's real number lies outside the field. -/
theorem State.humExact_clamped_iff (s : State) (q : Number) :
    (fieldOf 16 (humExact s.humTerms (q.clamp 0 100))).clamped = true ↔
      Spec.humidityOf s (min (max q.value 0) 100) < 0 ∨ 0xFFFF < Spec.humidityOf s (min (max q.value 0) 100) := by
  rw [fieldOf_clamped_iff (humExact_wellFormed _ _), s.value_humExact, value_clamp_percent]
  norm_num

theorem State.begin_bmeSetT_notes (s : State) (q : Number) :
    (s.begin.bmeSetT q).notes =
      notesOf
        [(degenerate (tempCoeffs s.calT1 s.calT2 s.calT3 q).1 (tempCoeffs s.calT1 s.calT2 s.calT3 q).2.1
            (tempCoeffs s.calT1 s.calT2 s.calT3 q).2.2, .degenerate),
          ((fieldOf 20 (tempExact s.calT1 s.calT2 s.calT3 q)).clamped, .clamped)] := by
  rw [State.bmeSetT, State.note_notes, State.put20_notes]
  rfl

theorem State.begin_bmeSetH_notes_of_c4_zero {s : State} (hc4 : s.humTerms.c4 = 0) (q : Number) :
    (s.begin.bmeSetH q).notes = notesOf [(humClamped q, .clamped), (true, .degenerate)] := by
  unfold State.bmeSetH
  exact congrArg State.notes (if_pos hc4)

theorem State.begin_bmeSetH_notes_of_c4_ne_zero {s : State} (hc4 : s.humTerms.c4 ≠ 0) (q : Number) :
    (s.begin.bmeSetH q).notes =
      notesOf
        [(humClamped q, .clamped),
          (degenerate (.ofRat s.humTerms.c2) (.ofRat (-1)) (.num (q.clamp 0 100)), .degenerate),
          ((fieldOf 16 (humExact s.humTerms (q.clamp 0 100))).clamped, .clamped)] := by
  unfold State.bmeSetH
  refine (congrArg State.notes (if_neg hc4)).trans ?_
  rw [State.note_notes, State.memWrite_notes]
  rfl

/-- R333: the notes of a list, class by class. -/
theorem notesOf_cons_eq {b : Bool} {P : Prop} [Decidable P] (h : b = true ↔ P) (e : ErrorClass)
    {l : List (Bool × ErrorClass)} {notes : List ErrorClass} (hl : notesOf l = notes) :
    notesOf ((b, e) :: l) = (if P then [e] else []) ++ notes := hl ▸ notesOf_cons h e l

/-- Settles O31: each class is listed where its condition is met, and the conditions are those of the rules. -/
theorem bmeHostCallNotes : Obligations.BmeHostCallNotes := by
  refine fun s t q => ⟨fun h => ?temperature, fun h => ?humidity⟩
  case temperature =>
    classical
    rw [exec_bme280SetT, onFamily_next] at h
    obtain ⟨-, -, rfl⟩ := h
    rw [State.begin_bmeSetT_notes, ← List.append_nil (ite _ [ErrorClass.clamped] [])]
    exact notesOf_cons_eq (tempCoeffs_degenerate_iff _ _ _ q) _ (notesOf_cons_eq (tempExact_clamped_iff _ _ _ q) _ rfl)
  case humidity =>
    rw [exec_bme280SetH, onFamily_next] at h
    obtain ⟨-, -, rfl⟩ := h
    rw [List.append_assoc]
    by_cases hc4 : s.humTerms.c4 = 0
    · rw [State.begin_bmeSetH_notes_of_c4_zero hc4]
      refine notesOf_cons_eq (humClamped_iff q) _ ?_
      rw [if_pos (.inr hc4), if_neg fun h => h.1 hc4]
      rfl
    · rw [State.begin_bmeSetH_notes_of_c4_ne_zero hc4]
      have hdegenerate := (s.humTerms_degenerate_iff q).trans (or_iff_left hc4).symm
      have hclamped := (s.humExact_clamped_iff q).trans (and_iff_right hc4).symm
      refine notesOf_cons_eq (humClamped_iff q) _ (notesOf_cons_eq hdegenerate _ ?_)
      exact (notesOf_cons_eq hclamped _ rfl).trans (List.append_nil _)

end Sys2Proof.Machine

/-! PROOFS. What a controller decodes of a stored field (spec/42_bme280_codec R191, spec/43_sensirion_codec R225), and
the order of the Sensirion host calls (R224). -/

namespace Sys2Proof.Machine

variable {s t : State}

/-! ### An exactly stored field -/

/-- R18: at tolerance 0 a value within the field is stored as its floor. -/
theorem floor_bounds_of_near {n m tolerance : ℕ} {v : ℝ} (hnear : |(n : ℤ) - Spec.toField m v| ≤ (tolerance : ℤ))
    (htolerance : tolerance = 0) (hlo : 0 ≤ v) (hhi : v ≤ m) : (n : ℝ) ≤ v ∧ v < n + 1 := by
  have heq : Spec.toField m v = n := by
    rw [htolerance, Nat.cast_zero, abs_nonpos_iff, sub_eq_zero] at hnear
    exact hnear.symm
  rw [Spec.toField, max_eq_left hlo, min_eq_left hhi, Int.floor_eq_iff] at heq
  exact_mod_cast heq

/-! ### Sensirion -/

/-- Settles O49: `T_RAW` is the floor of the affine transform of T, which the decode undoes. -/
theorem shtTemperatureRoundTrip : Obligations.ShtTemperatureRoundTrip := by
  intro s t q htolerance hlo hhi hnext
  obtain ⟨t', hnext', hnear, -⟩ := shtSetTStoresWord s q (exec_next_ready hnext)
  obtain rfl : t' = t := by simpa [hnext'] using hnext
  obtain ⟨hle, hlt⟩ := floor_bounds_of_near hnear htolerance (by linarith) (by push_cast; linarith)
  unfold shtTempDecode
  push_cast
  constructor <;> linarith

/-- Settles O55: where nothing was clamped, `H_RAW` is the floor of the affine transform of H. -/
theorem shtHumidityRoundTrip : Obligations.ShtHumidityRoundTrip := by
  intro s t q htolerance hnext hnotes
  have hready : Ready Family.isSensirion s := exec_next_ready hnext
  obtain ⟨t', hnext', hnear, hframe⟩ := shtSetHStoresWord s q hready
  obtain rfl : t' = t := by simpa [hnext'] using hnext
  have hspan := hready.humSpan_pos
  rw [hframe] at hnotes
  obtain ⟨harg, hresult⟩ : (0 ≤ q.value ∧ q.value ≤ 100) ∧
      0 ≤ Spec.shtHumidity s.cfg.params (min (max q.value 0) 100) ∧
      Spec.shtHumidity s.cfg.params (min (max q.value 0) 100) ≤ 0xFFFF := by
    simpa [Spec.quiet, not_or] using hnotes
  obtain ⟨hle, hlt⟩ := floor_bounds_of_near hnear htolerance hresult.1 (by exact_mod_cast hresult.2)
  rw [max_eq_left harg.1, min_eq_left harg.2, Spec.shtHumidity] at hle hlt
  rw [le_div_iff₀ hspan] at hle
  rw [div_lt_iff₀ hspan] at hlt
  unfold shtHumDecode
  constructor <;> linarith

/-- Settles O50: SET_T writes `T_RAW` alone and SET_H `H_RAW` alone, and neither reads what the other writes. -/
theorem shtHostCallsCommute : Obligations.ShtHostCallsCommute := by
  intro s q h hready
  have hsetT : ∀ s, Ready Family.isSensirion s →
      exec (decode s.cfg (.setT (.finite q))) s = .next (s.begin.shtSetT q) :=
    fun s hs => by rw [decode_shtSetT hs.family, exec_shtSetT, onFamily_ready hs.config hs.family]
  have hsetH : ∀ s, Ready Family.isSensirion s →
      exec (decode s.cfg (.setH (.finite h))) s = .next (s.begin.shtSetH h) :=
    fun s hs => by rw [decode_shtSetH hs.family, exec_shtSetH, onFamily_ready hs.config hs.family]
  have hreadyT : Ready Family.isSensirion (s.begin.shtSetT q) := hready.of_cfg_eq rfl
  have hreadyH : Ready Family.isSensirion (s.begin.shtSetH h) := hready.of_cfg_eq rfl
  refine ⟨(s.begin.shtSetT q).begin.shtSetH h, (s.begin.shtSetH h).begin.shtSetT q, ?temperatureFirst, ?humidityFirst,
    rfl⟩
  case temperatureFirst =>
    rw [runEvents_cons (hsetT s hready), runEvents_cons (hsetH _ hreadyT), runEvents]
  case humidityFirst =>
    rw [runEvents_cons (hsetH s hready), runEvents_cons (hsetT _ hreadyH), runEvents]

/-! ### The BME280 temperature -/

namespace Spec

section Quadratic

variable {a b c x : ℝ} (ha : 0 < a) (hD : 0 < b * b - 4 * a * c)
include ha hD

/-- For a > 0 the greater root is the one that adds √D. -/
theorem solve_max_of_pos : 2 * a * solve a b c .max + b = √(b * b - 4 * a * c) := by
  obtain ⟨hmax, -⟩ := solve_of_discriminant_pos ha.ne' hD
  have hroots : root a b c (-1) ≤ root a b c 1 := by
    unfold root
    gcongr
    norm_num
  rw [hmax, max_eq_left hroots, root]
  field_simp
  ring

/-- Between the vertex and the greater root the quadratic is not positive. -/
theorem quadratic_nonpos (hvertex : -b / (2 * a) ≤ x) (hroot : x ≤ solve a b c .max) : a * x * x + b * x + c ≤ 0 := by
  have hlo : 0 ≤ 2 * a * x + b := by
    rw [div_le_iff₀ (by positivity)] at hvertex
    linarith
  have hhi : 2 * a * x + b ≤ √(b * b - 4 * a * c) := by
    rw [← solve_max_of_pos ha hD]
    gcongr
  have hsquare := (Real.le_sqrt hlo hD.le).1 hhi
  nlinarith

/-- Above the greater root the quadratic is positive. -/
theorem quadratic_pos (hroot : solve a b c .max < x) : 0 < a * x * x + b * x + c := by
  have hlt : √(b * b - 4 * a * c) < 2 * a * x + b := by
    rw [← solve_max_of_pos ha hD]
    gcongr
  have hsquare := (Real.sqrt_lt' ((Real.sqrt_nonneg _).trans_lt hlt)).1 hlt
  nlinarith

end Quadratic
end Spec

/-- R183: the decode of `n` lies above T by the temperature quadratic at n/16384, in units of 1/5120. -/
theorem tempDecode_sub (n : ℕ) (t1 t2 t3 : ℤ) (v : ℝ) :
    5120 * ((tempDecode n t1 t2 t3 : ℝ) - v) =
      Spec.tempA t3 * (n / 16384) * (n / 16384) + Spec.tempB t1 t2 t3 * (n / 16384) + Spec.tempC t1 t2 t3 v := by
  unfold tempDecode Spec.tempA Spec.tempB Spec.tempC
  push_cast
  ring

/-- Settles O32: `adc_T`/16384 is the last step not above the greater root of the temperature quadratic. -/
theorem bmeTemperatureRoundTrip : Obligations.BmeTemperatureRoundTrip := by
  intro s t q hmem htolerance ht3 hnext hnotes hvertex
  obtain ⟨t', hnext', hnear, -⟩ := bmeSetTStoresCompensation s q (exec_next_ready hnext) hmem
  obtain rfl : t' = t := by simpa [hnext'] using hnext
  rw [(bmeHostCallNotes s t' q).1 hnext] at hnotes
  obtain ⟨hregular, hlo, hhi⟩ : ¬ Spec.tempDegenerate s.calT1 s.calT2 s.calT3 q.value ∧
      0 ≤ Spec.temperature s.calT1 s.calT2 s.calT3 q.value ∧
      Spec.temperature s.calT1 s.calT2 s.calT3 q.value ≤ 0xFFFFF := by
    simpa [not_or] using hnotes
  obtain ⟨hle, hlt⟩ := floor_bounds_of_near hnear htolerance hlo (by exact_mod_cast hhi)
  have ha : 0 < Spec.tempA s.calT3 := div_pos (by exact_mod_cast ht3) (by norm_num)
  have hD := not_le.1 (not_or.1 hregular).2
  rw [Spec.temperature] at hle hlt
  refine ⟨?atMost, fun n hn => ?greatest⟩
  case atMost =>
    have hP := Spec.quadratic_nonpos ha hD hvertex ((div_le_iff₀ (by norm_num)).2 hle)
    rw [← tempDecode_sub] at hP
    linarith
  case greatest =>
    have hn' : (t'.adcT : ℝ) + 1 ≤ n := by exact_mod_cast hn
    have hP := Spec.quadratic_pos ha hD ((lt_div_iff₀ (by norm_num)).2 (hlt.trans_le hn'))
    rw [← tempDecode_sub] at hP
    linarith

end Sys2Proof.Machine

/-! PROOFS. The fields of the register file as numbers (spec/42_bme280_codec R180, R181) and the platform's deliveries
(spec/30_encoding R110, R126). -/

namespace Sys2Proof.Machine

/-! ### Fields -/

/-- R17: two's complement. -/
theorem toInt_eq_sext {w : Nat} (v : BitVec w) (hw : 0 < w) : v.toInt = Spec.sext w v.toNat := by
  have hhalf : 2 ^ w = 2 * 2 ^ (w - 1) := by rw [← pow_succ', Nat.sub_add_cancel hw]
  have hcond : 2 * v.toNat < 2 ^ w ↔ v.toNat < 2 ^ (w - 1) := by rw [hhalf]; omega
  rw [BitVec.toInt_eq_toNat_cond, Spec.sext]
  simp only [hcond]
  push_cast
  rfl

/-- R81: a little-endian word is its high byte times 256 and its low byte. -/
theorem State.calWord_toNat (s : State) (a : Nat) : (s.calWord a).toNat = Spec.wordAt s a := by
  rw [State.calWord, joinBytes, BitVec.toNat_append, Spec.wordAt, ← Nat.shiftLeft_add_eq_or_of_lt (BitVec.isLt _),
    Nat.shiftLeft_eq]

/-- R180: a byte above four bits. -/
theorem toNat_append_nibble (b : Byte) (n : BitVec 4) : (b ++ n).toNat = b.toNat * 16 + n.toNat := by
  rw [BitVec.toNat_append, ← Nat.shiftLeft_add_eq_or_of_lt n.isLt, Nat.shiftLeft_eq]

/-- R180: the nibbles of a byte. -/
theorem toNat_nibbles (b : Byte) :
    (b.extractLsb' 0 4).toNat = b.toNat % 16 ∧ (b.extractLsb' 4 4).toNat = b.toNat / 16 := by
  have := b.isLt
  simp only [BitVec.extractLsb'_toNat, Nat.shiftRight_eq_div_pow]
  omega

theorem State.calWord_toInt (s : State) (a : Nat) : (s.calWord a).toInt = Spec.sext 16 (Spec.wordAt s a) := by
  rw [toInt_eq_sext _ (by omega), State.calWord_toNat]

/-- Settles O54: words, bytes above nibbles and single bytes, each read as the rules say. -/
theorem fieldsFromRegisterBytes : Obligations.FieldsFromRegisterBytes := by
  intro s
  refine ⟨congrArg _ (s.calWord_toNat _), s.calWord_toInt _, s.calWord_toInt _, congrArg _ (s.calWord_toNat _),
    fun _ _ _ => s.calWord_toInt _, rfl, s.calWord_toInt _, rfl, ?h4, ?h5, toInt_eq_sext _ (by omega), ?adcT, rfl⟩
  case h4 => rw [State.calH4, toInt_eq_sext _ (by omega), toNat_append_nibble, (toNat_nibbles _).1]
  case h5 => rw [State.calH5, toInt_eq_sext _ (by omega), toNat_append_nibble, (toNat_nibbles _).2]
  case adcT =>
    unfold State.adcT
    omega

/-! ### The platform -/

/-- R126: the receive buffer keeps the first bytes. -/
theorem receiveBuffer_isPrefix (maxRx : Option Nat) (b : List Byte) : receiveBuffer maxRx b <+: b := by
  cases maxRx with
  | none => exact List.prefix_refl b
  | some n => exact List.take_prefix n b

theorem State.onWire_other {s : State} {t : Transfer} (h : t.addr ≠ s.cfg.busAddr) : s.onWire t = s := by
  simp [State.onWire, deliver, h]

theorem State.onWire_own {s : State} {t : Transfer} (h : t.addr = s.cfg.busAddr) :
    s.onWire t = { s with input := s.input ++
      [.event (if t.read then .busRead t.clocks else .busWrite (receiveBuffer s.cfg.maxRx t.bytes))] } := by
  simp [State.onWire, deliver, h]

/-- Settles O53: the address decides delivery, the direction the event, and the buffer the bytes of a write. -/
theorem platformDelivers : Obligations.PlatformDelivers := by
  refine fun s t => ⟨State.onWire_other, fun h hread => ?read, fun h hwrite => ?write⟩
  case read => rw [State.onWire_own h, if_pos hread]
  case write =>
    refine ⟨_, receiveBuffer_isPrefix s.cfg.maxRx t.bytes, fun hmax => ?unlimited, fun n hmax => ?limited, ?queued⟩
    case unlimited => rw [hmax, receiveBuffer]
    case limited => rw [hmax, receiveBuffer]
    case queued => rw [State.onWire_own h, if_neg (by simp [hwrite])]

end Sys2Proof.Machine
